-- ==== Sys2Proof/Word.lean ====
section
/-! DEFINITION. The word type of the step words (spec/30_encoding.md R71, format STEP8). -/

namespace Sys2Proof

/-- An 8-bit step word `w[7:0]` (R71): the spec's code for one operation of a trace. -/
abbrev StepWord := BitVec 8

end Sys2Proof
end

