-- ==== Sys2Proof/Syntax.lean ====
section
/-! DEFINITION. The ten operations of the block (spec/30_encoding.md R70), one constructor for each row of spec/opcode_table.json. -/

namespace Sys2Proof

/-- One operation (R70). The operands are single bits (R71), held as `Bool`, so every term is a well-formed operation. -/
inductive Instr where
  /-- `LINE p1 p0`: the reader sets the levels of D1 and D0, `true` = pulsing (R80). -/
  | line (p1 p0 : Bool)
  /-- `TICK`: one prescaled timer clock (R101). -/
  | tick
  /-- `SSHIFT sdi`: one period of the host's serial clock, `sdi` the level sampled on the data input (R122). -/
  | sshift (sdi : Bool)
  /-- `EDGE_IDLE`: the capture handler finds both lines idle (R85). -/
  | edgeIdle
  /-- `EDGE_ZERO`: the capture handler finds only D0 pulsing (R82). -/
  | edgeZero
  /-- `EDGE_ONE`: the capture handler finds only D1 pulsing (R83). -/
  | edgeOne
  /-- `EDGE_DISC`: the capture handler finds both lines pulsing (R84). -/
  | edgeDisc
  /-- `TIMEOUT`: the validator serves the timer overflow (R102). -/
  | timeout
  /-- `SBYTE`: the encoder serves the byte-complete condition (R123). -/
  | sbyte
  /-- `RESET`: the `rst` port (R165). -/
  | reset
  deriving DecidableEq, Repr

end Sys2Proof
end

