-- ==== Sys2Proof/WellFormed.lean ====
section
/-! DEFINITION. Which 8-bit words are step words (spec/30_encoding.md R71, R73; R74 clause (a)). Clause (b) of R74, that a
handler word is enabled where it is applied, needs the state: `Machine.enabled` and `Machine.wellFormedTrace`. -/

namespace Sys2Proof

/-- The match and mask of a row of R71's table. -/
structure Pattern where
  mask : StepWord
  bits : StepWord
  deriving DecidableEq, Repr

/-- "A word matches a row when `(w & mask) = match`" (R71). -/
def Pattern.hits (p : Pattern) (w : StepWord) : Bool := w &&& p.mask == p.bits

/-- The match and mask columns of R71, in the order of spec/opcode_table.json. -/
def patterns : List Pattern :=
  [⟨0xFC#8, 0x00#8⟩, ⟨0xFF#8, 0x10#8⟩, ⟨0xFE#8, 0x20#8⟩, ⟨0xFF#8, 0x40#8⟩, ⟨0xFF#8, 0x41#8⟩,
   ⟨0xFF#8, 0x42#8⟩, ⟨0xFF#8, 0x43#8⟩, ⟨0xFF#8, 0x50#8⟩, ⟨0xFF#8, 0x60#8⟩, ⟨0xFF#8, 0xFF#8⟩]

/-- The word matches a row of R71 (R74 clause (a)); every other word is reserved (R73). -/
def stepWordOk (w : StepWord) : Bool := patterns.any fun p => p.hits w

/-- An operation is well-formed when its operands are in range. Every operand of R71 is ONE bit and is held as a `Bool`, so
each constructor's check is met by its type; the match names every constructor, so that an operation added later needs its
own check. -/
def Instr.wellFormed : Instr → Bool
  | .line _ _ => true
  | .tick => true
  | .sshift _ => true
  | .edgeIdle => true
  | .edgeZero => true
  | .edgeOne => true
  | .edgeDisc => true
  | .timeout => true
  | .sbyte => true
  | .reset => true

end Sys2Proof
end

