-- ==== Sys2Proof/Decode.lean ====
section
/-! DEFINITION. From step words to operations and back (spec/30_encoding.md R71, R73). Decoding is total: a reserved word
decodes to nothing, and `step` refuses it by name. -/

namespace Sys2Proof

/-- The operation a step word stands for: R71's table, row by row, with the operand fields `p1 = w[1]`, `p0 = w[0]` of LINE
and `sdi = w[0]` of SSHIFT; `none` for a reserved word (R73). -/
def decode (w : StepWord) : Option Instr :=
  if w &&& 0xFC#8 = 0x00#8 then some (.line (w.getLsbD 1) (w.getLsbD 0))
  else if w &&& 0xFF#8 = 0x10#8 then some .tick
  else if w &&& 0xFE#8 = 0x20#8 then some (.sshift (w.getLsbD 0))
  else if w &&& 0xFF#8 = 0x40#8 then some .edgeIdle
  else if w &&& 0xFF#8 = 0x41#8 then some .edgeZero
  else if w &&& 0xFF#8 = 0x42#8 then some .edgeOne
  else if w &&& 0xFF#8 = 0x43#8 then some .edgeDisc
  else if w &&& 0xFF#8 = 0x50#8 then some .timeout
  else if w &&& 0xFF#8 = 0x60#8 then some .sbyte
  else if w &&& 0xFF#8 = 0xFF#8 then some .reset
  else none

/-- The first operation of a list of bytes and the bytes after it: one byte an operation (format STEP8, R71). -/
def decodeBytes : List StepWord → Option (Instr × List StepWord)
  | [] => none
  | w :: rest => (decode w).map fun i => (i, rest)

/-- The step word of an operation, field by field as R71 writes it. -/
def encode : Instr → StepWord
  | .line p1 p0 => 0b000000#6 ++ BitVec.ofBool p1 ++ BitVec.ofBool p0
  | .tick => 0b00010000#8
  | .sshift sdi => 0b0010000#7 ++ BitVec.ofBool sdi
  | .edgeIdle => 0b01000000#8
  | .edgeZero => 0b01000001#8
  | .edgeOne => 0b01000010#8
  | .edgeDisc => 0b01000011#8
  | .timeout => 0b01010000#8
  | .sbyte => 0b01100000#8
  | .reset => 0b11111111#8

/-- The bytes of a number of `n` bytes, the least significant first. -/
def wordBytes : Nat → Nat → List StepWord
  | 0, _ => []
  | n + 1, w => BitVec.ofNat 8 w :: wordBytes n (w / 256)

/-- The operation read from a table word of `nbits` bits (8 for every row of spec/opcode_table.json, whose words are one
byte): the decoder must take the whole word. -/
def decodeTableWord (nbits w : Nat) : Option Instr :=
  match decodeBytes (wordBytes (nbits / 8) w) with
  | some (i, []) => some i
  | _ => none

end Sys2Proof
end

