-- ==== Sys2Proof/Config.lean ====
section
/-! DEFINITION. What a build of the block fixes (spec/00_scope.md R6, R23). A parameter the spec leaves OPEN is a constant
without a body: nothing can evaluate it, so a claim holds for every value of it. -/

namespace Sys2Proof.Config

/-- The bits of the timeout counter beyond its first: OPEN (R6, D11; log entry 6). -/
opaque timerMoreBits : Nat

/-- `TIMER_WIDTH`, the bits of the timeout counter: OPEN, at least one, since it is a counter that counts (R6, D11; log
entry 6). -/
def timerWidth : Nat := timerMoreBits + 1

/-- `TIMER_OFFSET`, the value the counter restarts from: OPEN, `0 ≤ TIMER_OFFSET < 2^TIMER_WIDTH`, which its type says
(R6, D11; log entry 6). -/
opaque timerOffset : BitVec timerWidth

/-- `TIMER_PRESCALE`, input clocks per TICK: OPEN (R6, D11; log entry 6). -/
opaque timerPrescale : Nat

/-- The two choices that `SPI_MODE` makes: the clock's idle level, and whether data moves on its first or second edge (R6, R120). -/
structure SpiMode where
  idleHigh : Bool
  secondEdge : Bool
  deriving DecidableEq, Repr, Inhabited

/-- `SPI_MODE`: OPEN; no rule at event level depends on it (R120, D9; log entry 22). -/
opaque spiMode : SpiMode

/-- `READY_ACTIVE_LEVEL`, the electrical level of an asserted ready line: OPEN (R17, D15; log entry 22). -/
opaque readyActiveLevel : Bool

/-- `LINE_PULSE_LEVEL`: low; the Wiegand lines idle high and pulse low (R6, R56, C9, D3; log entry 22). -/
def linePulseLevel : Bool := false

/-- `T_TIMEOUT` in TICKs: `2^TIMER_WIDTH − TIMER_OFFSET` (R100). -/
def timeoutTicks : Nat := 2 ^ timerWidth - timerOffset.toNat

/-- `T_TIMEOUT` in input clocks of the timer (R100). -/
def timeoutClocks : Nat := timeoutTicks * timerPrescale

end Sys2Proof.Config
end

