-- ==== Sys2Proof/Machine/State.lean ====
section
/-! DEFINITION. The state of the block (spec/10_state.md R10), its values after RESET (R26), and how a step can stop. -/

namespace Sys2Proof.Machine

/-- Every register of R10 ("Nothing else is state"), and one field of the model's own, `trace`. One-bit registers are
`Bool`, `true` = 1. The block has no memory, no program counter and no register file (R10, R18, R40). -/
structure State where
  /-- The status byte `{hasData, errorFlag, count[5:0]}` (R11, R55). -/
  status : BitVec 8
  /-- Captured bits, then remaining payload: one 64-bit register (R15, R41). -/
  buffer : BitVec 64
  /-- `SR`, the serial shift register (R16). -/
  sr : BitVec 8
  /-- The ready-signal output register, `true` = asserted (R17). -/
  ready : Bool
  /-- The timeout timer is counting (R20). -/
  tRun : Bool
  /-- The timeout counter, `TIMER_WIDTH` bits (R20). -/
  tCnt : BitVec Config.timerWidth
  /-- The timer-overflow pending condition (R20). -/
  tPend : Bool
  /-- Bit shifts since the last byte boundary (R21). -/
  sCnt : BitVec 3
  /-- The byte-complete pending condition (R21). -/
  sPend : Bool
  /-- The present level of D1, `true` = pulsing; the reader's, not storage of the block (R22). -/
  lineP1 : Bool
  /-- The present level of D0, `true` = pulsing (R22). -/
  lineP0 : Bool
  /-- The line-change pending condition (R22). -/
  ePend : Bool
  /-- The step words still to be applied, the next one first (R71, R74): what the reader, the timer clock, the host, the
  `rst` port and the arbitration do next. The model's own field, no register of the block (log entry 1). -/
  trace : List StepWord
  deriving DecidableEq, Repr

/-- The machine right after RESET: R26's table; the reader idle (R10; log entry 17); no step word given yet (log entry 1). -/
def State.reset : State where
  status := 0x00#8
  buffer := 0#64
  sr := 0x00#8
  ready := false
  tRun := false
  tCnt := 0#Config.timerWidth
  tPend := false
  sCnt := 0#3
  sPend := false
  lineP1 := false
  lineP0 := false
  ePend := false
  trace := []

/-- A fault of the hardware. There is none: "The block raises no exception, trap or fault" (R140), so the type has no
constructor and no step can answer `fault` (log entry 23). -/
inductive Fault where
  deriving DecidableEq, Repr

/-- Why the model gives a step no meaning. -/
inductive Refusal where
  /-- Raised by an arm of `exec` whose instruction has no meaning yet; none is left. Safe. -/
  | notModelled (mnemonic : String)
  /-- Raised by `stepWord` for a reserved step word (R73: "a model refuses it"). Safe: the run stops (log entry 4). -/
  | reservedWord (w : StepWord)
  /-- Raised by the six handler operations where their "enabled when" of R70 does not hold: the trace "describes something
  the hardware cannot do, and is refused" (R74). Safe: the run stops (log entry 3). -/
  | notEnabled (i : Instr)
  deriving DecidableEq, Repr

end Sys2Proof.Machine
end

