-- ==== Sys2Proof/Machine/Flags.lean ====
section
/-! DEFINITION. The status byte's fields and every computation on them (spec/10_state.md R11-R14, 30_encoding.md R55, R68),
and the phase (R18). -/

namespace Sys2Proof.Machine

/-- `hasData = status[7]` (R13; position: D2, log entry 7). -/
def statusHasData (st : BitVec 8) : Bool := st.getLsbD 7

/-- `errorFlag = status[6]` (R14; position: D2, log entry 7). -/
def statusErrorFlag (st : BitVec 8) : Bool := st.getLsbD 6

/-- `count = status[5:0]`: the mask that discards the two flags (R12, R68). -/
def statusCount (st : BitVec 8) : BitVec 6 := st.extractLsb' 0 6

/-- The status byte `{hasData, errorFlag, count}` (R55). -/
def packStatus (hasData errorFlag : Bool) (count : BitVec 6) : BitVec 8 :=
  BitVec.ofBool hasData ++ BitVec.ofBool errorFlag ++ count

/-- `count <- (count + 1) mod 64`, `status[7:6]` unchanged: 63 + 1 is 0 with no carry into the flags (R12, R68; D5, log
entry 8). -/
def bumpCount (st : BitVec 8) : BitVec 8 :=
  packStatus (statusHasData st) (statusErrorFlag st) (statusCount st + 1)

/-- `status <- {1, status[6], zext_6(N)}` (R103; errorFlag unchanged: D19, log entry 19). -/
def readyStatus (st : BitVec 8) (n : BitVec 6) : BitVec 8 := packStatus true (statusErrorFlag st) n

/-- The field `hasData` of the state's status byte (R13). -/
def State.hasData (s : State) : Bool := statusHasData s.status

/-- The field `errorFlag` of the state's status byte (R14). -/
def State.errorFlag (s : State) : Bool := statusErrorFlag s.status

/-- The field `count` of the state's status byte (R12). -/
def State.count (s : State) : BitVec 6 := statusCount s.status

/-- The phases of the overall state machine; IDLE and TRANSMITTING are one, since "the block cannot tell these two apart"
(R18, D27). -/
inductive Phase where
  | idleOrTransmitting
  | capturing
  | ready
  deriving DecidableEq, Repr

/-- The phase, a function of the registers and no register itself (R18). -/
def State.phase (s : State) : Phase :=
  if s.hasData then .ready else if s.tRun then .capturing else .idleOrTransmitting

end Sys2Proof.Machine
end

