-- ==== Sys2Proof/Machine/Operands.lean ====
section
/-! DEFINITION. The forms in which operations take and give their data: line samples, bits of `buffer`, the payload, the byte
count, bit reversal, counters (spec/30_encoding.md R60, R61, R63, R67, R68; 42_serial_encoder.md R121). -/

namespace Sys2Proof.Machine

/-- The classes of a line sample `(lineP1, lineP0)` (R67). -/
inductive LineClass where
  | bothIdle
  | d0Pulsing
  | d1Pulsing
  | bothPulsing
  deriving DecidableEq, Repr

/-- The class of a line sample (R67; `(1, 1)` is the disconnect: C1, D4, log entry 9). -/
def lineClass (p1 p0 : Bool) : LineClass :=
  match p1, p0 with
  | false, false => .bothIdle
  | false, true => .d0Pulsing
  | true, false => .d1Pulsing
  | true, true => .bothPulsing

/-- The operation a served line change performs: the sample selects it (R67, R86). -/
def selectEdge (p1 p0 : Bool) : Instr :=
  match lineClass p1 p0 with
  | .bothIdle => .edgeIdle
  | .d0Pulsing => .edgeZero
  | .d1Pulsing => .edgeOne
  | .bothPulsing => .edgeDisc

/-- `buffer[count] <- 1`: `buffer | (1 << count)`; the index is 0 to 63, always in range (R45, R68). -/
def setBit (b : BitVec 64) (i : BitVec 6) : BitVec 64 := b ||| (1#64 <<< i.toNat)

/-- `buffer[k] <- 0`: `buffer & ~(1 << k)` (R68). -/
def clearBit (b : BitVec 64) (k : Nat) : BitVec 64 := b &&& ~~~(1#64 <<< k)

/-- `n = 26 or n = 34`: the whitelist `FRAME_LENGTHS`, exact equality (R6, R68, R102). -/
def validLength (n : BitVec 6) : Bool := n == 26#6 || n == 34#6

/-- Payload extraction for a frame of `n` bits: drop the leading parity position, then clear the trailing one, now at bit
`n − 2` (R60). -/
def payload (b : BitVec 64) (n : BitVec 6) : BitVec 64 := clearBit (b >>> 1) (n.toNat - 2)

/-- The byte count `N = n div 8`, floor division (R61). -/
def byteCount (n : BitVec 6) : BitVec 6 := n / 8#6

/-- `buffer[7:0]`, the low byte (R41, R68). -/
def lowByte (b : BitVec 64) : BitVec 8 := b.extractLsb' 0 8

/-- Byte `k` of `buffer`: `buffer[8k+7 : 8k]` (R41). -/
def bufferByte (b : BitVec 64) (k : Nat) : BitVec 8 := b.extractLsb' (8 * k) 8

/-- The swap of the two nibbles (R121). -/
def swapNibbles (b : BitVec 8) : BitVec 8 := ((b &&& 0xF0#8) >>> 4) ||| ((b &&& 0x0F#8) <<< 4)

/-- The swap of the 2-bit pairs inside each nibble (R121). -/
def swapPairs (b : BitVec 8) : BitVec 8 := ((b &&& 0xCC#8) >>> 2) ||| ((b &&& 0x33#8) <<< 2)

/-- The swap of neighbouring bits (R121). -/
def swapBits (b : BitVec 8) : BitVec 8 := ((b &&& 0xAA#8) >>> 1) ||| ((b &&& 0x55#8) <<< 1)

/-- `rev8`, the per-byte bit reversal, as the three swaps of R121. -/
def rev8 (b : BitVec 8) : BitVec 8 := swapBits (swapPairs (swapNibbles b))

/-- `SR <- {SR[6:0], sdi}`: shift left by one, the sampled bit into bit 0 (R68, R122; D8, log entry 12). -/
def shiftIn (sr : BitVec 8) (sdi : Bool) : BitVec 8 := sr.extractLsb' 0 7 ++ BitVec.ofBool sdi

/-- One count of an up-counter of `w` bits and whether it wrapped: all-ones goes to 0 (R68: `tCnt` in R101, `sCnt` in R122). -/
def countUp {w : Nat} (c : BitVec w) : BitVec w × Bool :=
  if c = BitVec.allOnes w then (0#w, true) else (c + 1#w, false)

end Sys2Proof.Machine
end

