-- ==== Sys2Proof/Machine/Ports.lean ====
section
/-! DEFINITION. The block's ports as functions of its registers (spec/10_state.md R24; 20_memory.md R53: driven without
delay). -/

namespace Sys2Proof.Machine

/-- `sdo = SR[7]` at all times (R120; D8, log entry 12). -/
def State.sdo (s : State) : Bool := s.sr.getLsbD 7

/-- The electrical level of `ready_o`: `READY_ACTIVE_LEVEL` when `ready = 1`, the other level otherwise (R17, R24). -/
def State.readyPin (s : State) : Bool := if s.ready then Config.readyActiveLevel else !Config.readyActiveLevel

/-- The electrical level of `d0`: the pulse level while D0 is pulsing, the other level while idle (R22, R24, R56). -/
def State.d0Pin (s : State) : Bool := if s.lineP0 then Config.linePulseLevel else !Config.linePulseLevel

/-- The electrical level of `d1` (R22, R24, R56). -/
def State.d1Pin (s : State) : Bool := if s.lineP1 then Config.linePulseLevel else !Config.linePulseLevel

/-- What the host samples on `sdo` while an operation is performed: one bit for an SSHIFT, `SR[7]` before the shift, and
nothing for any other operation (R53, R122; log entry 24). -/
def hostSees (i : Instr) (s : State) : List Bool :=
  match i with
  | .sshift _ => [s.sdo]
  | .line _ _ | .tick | .edgeIdle | .edgeZero | .edgeOne | .edgeDisc | .timeout | .sbyte | .reset => []

/-- A byte from the bits seen on `sdo`, the first bit as the most significant (R72, HOSTBYTE). -/
def byteOfBits (bits : List Bool) : BitVec 8 := bits.foldl shiftIn 0#8

end Sys2Proof.Machine
end

