-- ==== Sys2Proof/Machine/Ops.lean ====
section
/-! DEFINITION. The operations that several handlers share: event sources and their pending bits, when an operation is
enabled, handler entry, stale-frame discard, the timer, zeroing SharedState (spec/60_exceptions.md R143-R147, 30_encoding.md
R70, 40_capture.md R81), and taking the next step word of the trace. The block takes no exception (R140); entering a handler
is its only dispatch, saves nothing and restores nothing (R146, R147). -/

namespace Sys2Proof.Machine

/-- The three event sources (R143). -/
inductive EventSource where
  | lineChange
  | timerOverflow
  | serialByte
  deriving DecidableEq, Repr

/-- The event source that starts a handler; the steps of the reader, the timer clock, the host and `rst` have none (R70, R143). -/
def handlerSource : Instr → Option EventSource
  | .edgeIdle | .edgeZero | .edgeOne | .edgeDisc => some .lineChange
  | .timeout => some .timerOverflow
  | .sbyte => some .serialByte
  | .line _ _ | .tick | .sshift _ | .reset => none

/-- The handlers that may be served next, one for each pending bit that is set: for a line change the one the levels at
service time select (R86, R143; D21, log entry 14). Which of them goes first is `EVENT_ARBITRATION`, OPEN, and is the trace's
to say (R145; D13, log entry 21). -/
def State.pendingHandlers (s : State) : List Instr :=
  (if s.ePend then [selectEdge s.lineP1 s.lineP0] else []) ++
  (if s.tPend then [.timeout] else []) ++
  (if s.sPend then [.sbyte] else [])

/-- The column "enabled when" of R70. -/
def enabled (i : Instr) (s : State) : Bool :=
  match i with
  | .line _ _ => true
  | .tick => true
  | .sshift _ => true
  | .edgeIdle => s.ePend && !s.lineP1 && !s.lineP0
  | .edgeZero => s.ePend && !s.lineP1 && s.lineP0
  | .edgeOne => s.ePend && s.lineP1 && !s.lineP0
  | .edgeDisc => s.ePend && s.lineP1 && s.lineP0
  | .timeout => s.tPend
  | .sbyte => s.sPend
  | .reset => true

/-- Handler entry: the handler's atomic transition where it is enabled; a handler word elsewhere is refused (R74, R146; log
entry 3). -/
def serve (i : Instr) (handler : State → State) (s : State) : Host.Outcome State Fault Refusal :=
  if enabled i s then .next (handler s) else .refused (.notEnabled i)

/-- SharedState all-zero: `status <- 0x00`, `buffer <- 0` (R104, R167). -/
def State.zeroShared (s : State) : State := { s with status := 0x00#8, buffer := 0#64 }

/-- The stale-frame discard: a frame never drained is dropped and `ready` falls (R81). -/
def State.discardStale (s : State) : State :=
  if s.hasData then { s.zeroShared with ready := false } else s

/-- The prologue of all four EDGE operations: `ePend <- 0`, then the stale-frame discard (R81; D14, log entry 14). -/
def State.edgePrologue (s : State) : State := { s with ePend := false }.discardStale

/-- "restart the inter-bit timeout timer from a fixed offset"; `tPend` is not cleared (R82, R87, R100; D12, log entry 15). -/
def State.restartTimer (s : State) : State := { s with tCnt := Config.timerOffset, tRun := true }

/-- The part EDGE_ZERO and EDGE_ONE share after the bit is taken: restart the timer, count the bit (R82, R83, R87). -/
def State.countBit (s : State) : State := { s.restartTimer with status := bumpCount s.status }

/-- The next step word and the state past it; nothing when no agent acts (R74; log entries 1 and 2). -/
def State.fetch (s : State) : Option (StepWord × State) :=
  match s.trace with
  | [] => none
  | w :: rest => some (w, { s with trace := rest })

/-- The event that `enabled` asks for has happened: its pending bit set and, for an EDGE operation, the lines at its sample.
Only `withFetchWord` uses it (log entry 5). -/
def State.arm (i : Instr) (s : State) : State :=
  match i with
  | .edgeIdle => { s with ePend := true, lineP1 := false, lineP0 := false }
  | .edgeZero => { s with ePend := true, lineP1 := false, lineP0 := true }
  | .edgeOne => { s with ePend := true, lineP1 := true, lineP0 := false }
  | .edgeDisc => { s with ePend := true, lineP1 := true, lineP0 := true }
  | .timeout => { s with tPend := true }
  | .sbyte => { s with sPend := true }
  | .line _ _ | .tick | .sshift _ | .reset => s

/-- The words put in front of the trace, the event armed if the first is a handler's (log entry 5). -/
def State.place (ws : List StepWord) (s : State) : State :=
  let t := { s with trace := ws ++ s.trace }
  match decodeBytes ws with
  | some (i, _) => t.arm i
  | none => t

end Sys2Proof.Machine
end

