-- ==== Sys2Proof/Machine/Capture.lean ====
section
/-! DEFINITION. WiegandCapture: LINE, EDGE_IDLE, EDGE_ZERO, EDGE_ONE, EDGE_DISC (spec/40_capture.md). Each handler is a total
function (30_encoding.md R74); its meaning serves it where it is enabled. -/

namespace Sys2Proof.Machine

/-- `LINE p1 p0`: the reader changes the input levels; a change of either sets `ePend` (R80; D14, log entry 14). -/
def State.line (p1 p0 : Bool) (s : State) : State :=
  { s with
    ePend := s.ePend || (p1, p0) != (s.lineP1, s.lineP0)
    lineP1 := p1
    lineP0 := p0 }

/-- EDGE_IDLE: the prologue and nothing else (R85). -/
def State.edgeIdle (s : State) : State := s.edgePrologue

/-- EDGE_ZERO: `buffer[count]` is left as it is; restart the timer, count the bit (R82). -/
def State.edgeZero (s : State) : State := s.edgePrologue.countBit

/-- EDGE_ONE: `buffer[count] <- 1` at the count after the prologue and before the increment (R83). -/
def State.edgeOne (s : State) : State :=
  let t := s.edgePrologue
  { t with buffer := setBit t.buffer t.count }.countBit

/-- EDGE_DISC: stop the timer, zero the status byte, clear `ready`; `buffer`, `tCnt`, `tPend` and `SR` are not written
(R84; C6, D6, D12, log entries 10 and 15). -/
def State.edgeDisc (s : State) : State :=
  { s.edgePrologue with tRun := false, status := 0x00#8, ready := false }

/-- The meaning of LINE (R80): always enabled. -/
def execLine (p1 p0 : Bool) (s : State) : Host.Outcome State Fault Refusal := .next (s.line p1 p0)

/-- The meaning of EDGE_IDLE (R85). -/
def execEdgeIdle (s : State) : Host.Outcome State Fault Refusal := serve .edgeIdle State.edgeIdle s

/-- The meaning of EDGE_ZERO (R82). -/
def execEdgeZero (s : State) : Host.Outcome State Fault Refusal := serve .edgeZero State.edgeZero s

/-- The meaning of EDGE_ONE (R83). -/
def execEdgeOne (s : State) : Host.Outcome State Fault Refusal := serve .edgeOne State.edgeOne s

/-- The meaning of EDGE_DISC (R84). -/
def execEdgeDisc (s : State) : Host.Outcome State Fault Refusal := serve .edgeDisc State.edgeDisc s

end Sys2Proof.Machine
end

