-- ==== Sys2Proof/Machine/Serial.lean ====
section
/-! DEFINITION. The serial peripheral and SerialOutputEncoder: SSHIFT, SBYTE (spec/42_serial_encoder.md). -/

namespace Sys2Proof.Machine

/-- `SSHIFT sdi`: `SR` shifts left by one with `sdi` into bit 0; the wrap of `sCnt` from 7 to 0 sets `sPend` (R122; D8, D10,
log entries 12 and 13). The bit that leaves is `hostSees`. -/
def State.sshift (sdi : Bool) (s : State) : State :=
  { s with
    sr := shiftIn s.sr sdi
    sCnt := (countUp s.sCnt).1
    sPend := s.sPend || (countUp s.sCnt).2 }

/-- SBYTE: `ready` and `sPend` fall, the low byte of `buffer` goes reversed into `SR`, `buffer` shifts right by 8, the whole
status byte is zeroed, whatever the phase (R123; D26, log entry 20). -/
def State.sbyte (s : State) : State :=
  { s with
    ready := false
    sPend := false
    sr := rev8 (lowByte s.buffer)
    buffer := s.buffer >>> 8
    status := 0x00#8 }

/-- The meaning of SSHIFT (R122): always enabled. -/
def execSshift (sdi : Bool) (s : State) : Host.Outcome State Fault Refusal := .next (s.sshift sdi)

/-- The meaning of SBYTE (R123). -/
def execSbyte (s : State) : Host.Outcome State Fault Refusal := serve .sbyte State.sbyte s

end Sys2Proof.Machine
end

