-- ==== Sys2Proof/Machine/System.lean ====
section
/-! DEFINITION. RESET, the only system operation (spec/70_reset_and_hazards.md R165, R168). -/

namespace Sys2Proof.Machine

/-- RESET: every register of R26 to its reset value; the line levels are the reader's and are not written (R165; D16, log
entry 16). The trace is what the agents do next and is not the block's to clear (log entry 1). -/
def State.doReset (s : State) : State :=
  { s with
    status := 0x00#8
    buffer := 0#64
    sr := 0x00#8
    ready := false
    tRun := false
    tCnt := 0#Config.timerWidth
    tPend := false
    sCnt := 0#3
    sPend := false
    ePend := false }

/-- The meaning of RESET (R165): always enabled. -/
def execReset (s : State) : Host.Outcome State Fault Refusal := .next s.doReset

end Sys2Proof.Machine
end

