-- ==== Sys2Proof/Machine/Validator.lean ====
section
/-! DEFINITION. The inter-bit timeout timer and FrameTimeoutValidator: TICK, TIMEOUT (spec/41_timeout_validator.md). -/

namespace Sys2Proof.Machine

/-- TICK: while `tRun`, the counter counts, and its wrap to 0 sets `tPend`; otherwise nothing (R101; D11, log entry 6). -/
def State.tick (s : State) : State :=
  if s.tRun then { s with tCnt := (countUp s.tCnt).1, tPend := s.tPend || (countUp s.tCnt).2 } else s

/-- `accept(n)`: extract the payload, put the byte count in `SR` unreversed and in `count`, set `hasData`, raise `ready`
(R103; D7, log entry 11). -/
def State.accept (n : BitVec 6) (s : State) : State :=
  { s with
    buffer := payload s.buffer n
    sr := (byteCount n).setWidth 8
    status := readyStatus s.status (byteCount n)
    ready := true }

/-- `reject`: SharedState zeroed; `ready`, `SR`, `sCnt`, `sPend` are not written (R104). -/
def State.reject (s : State) : State := s.zeroShared

/-- TIMEOUT: stop the timer, clear `tPend`, then test the masked count (R102). Applied while `hasData = 1` it rejects
without writing `ready` (R106; D18, log entry 18). -/
def State.timeout (s : State) : State :=
  let t := { s with tRun := false, tPend := false }
  if validLength t.count then t.accept t.count else t.reject

/-- The meaning of TICK (R101): always enabled. -/
def execTick (s : State) : Host.Outcome State Fault Refusal := .next s.tick

/-- The meaning of TIMEOUT (R102). -/
def execTimeout (s : State) : Host.Outcome State Fault Refusal := serve .timeout State.timeout s

end Sys2Proof.Machine
end

