-- ==== Sys2Proof/Machine/Dispatch.lean ====
section
/-! DEFINITION. The meaning of each operation of spec/opcode_table.json, one arm a constructor. -/

namespace Sys2Proof.Machine

/-- The meaning of an operation (R70): a next state where it is enabled, a refusal by name elsewhere (R74). -/
def exec (i : Instr) (s : State) : Host.Outcome State Fault Refusal :=
  match i with
  | .line p1 p0 => Sys2Proof.Machine.execLine p1 p0 s
  | .tick => Sys2Proof.Machine.execTick s
  | .sshift sdi => Sys2Proof.Machine.execSshift sdi s
  | .edgeIdle => Sys2Proof.Machine.execEdgeIdle s
  | .edgeZero => Sys2Proof.Machine.execEdgeZero s
  | .edgeOne => Sys2Proof.Machine.execEdgeOne s
  | .edgeDisc => Sys2Proof.Machine.execEdgeDisc s
  | .timeout => Sys2Proof.Machine.execTimeout s
  | .sbyte => Sys2Proof.Machine.execSbyte s
  | .reset => Sys2Proof.Machine.execReset s

end Sys2Proof.Machine
end

