-- ==== Sys2Proof/Machine/Sequencer.lean ====
section
/-! DEFINITION. Applying step words to a state: one word, a trace, a trace with what the host sees, the pseudo-operations
(spec/30_encoding.md R71-R74), and which traces are well-formed. -/

namespace Sys2Proof.Machine

/-- One step word applied to a state: its operation, or a refusal of a reserved word (R73; log entry 4). -/
def stepWord (w : StepWord) (s : State) : Host.Outcome State Fault Refusal :=
  match decode w with
  | some i => exec i s
  | none => .refused (.reservedWord w)

/-- A trace applied word by word, stopping at the first word refused (R74). -/
def runTrace : List StepWord → State → Host.Outcome State Fault Refusal
  | [], s => .next s
  | w :: ws, s =>
    match stepWord w s with
    | .next t => runTrace ws t
    | .fault r => .fault r
    | .refused r => .refused r

/-- A trace is well-formed from a state when every word matches a row and every handler word is enabled where it is applied
(R74). -/
def wellFormedTrace : List StepWord → State → Bool
  | [], _ => true
  | w :: ws, s =>
    match decode w with
    | none => false
    | some i =>
      enabled i s &&
        match exec i s with
        | .next t => wellFormedTrace ws t
        | .fault _ => false
        | .refused _ => false

/-- A trace applied as by `runTrace`, with the bits the host samples on `sdo` in order (R53, R122). -/
def runHost : List StepWord → State → Host.Outcome (List Bool × State) Fault Refusal
  | [], s => .next ([], s)
  | w :: ws, s =>
    match decode w with
    | none => .refused (.reservedWord w)
    | some i =>
      match exec i s with
      | .fault r => .fault r
      | .refused r => .refused r
      | .next t =>
        match runHost ws t with
        | .next (bits, u) => .next (hostSees i s ++ bits, u)
        | .fault r => .fault r
        | .refused r => .refused r

/-- `PULSE b`: one clean pulse of the reader, each edge served before the next (R72). -/
def pulseWords (b : Bool) : List StepWord :=
  [.line b !b, bif b then .edgeOne else .edgeZero, .line false false, .edgeIdle].map encode

/-- `FRAME b0 b1 .. b(n-1)`: the pulses in arrival order, no TICK between them (R72). -/
def frameWords (bits : List Bool) : List StepWord := bits.flatMap pulseWords

/-- `EXPIRE` from a counter value: TICKs until the counter overflows, then TIMEOUT (R72). -/
def expireWords (tCnt : BitVec Config.timerWidth) : List StepWord :=
  List.replicate (2 ^ Config.timerWidth - tCnt.toNat) (encode .tick) ++ [encode .timeout]

/-- `HOSTBYTE` with the eight bits the host drives on `sdi`: eight SSHIFTs, then SBYTE (R72). -/
def hostByteWords (sdi : Vector Bool 8) : List StepWord :=
  sdi.toList.map (fun b => encode (.sshift b)) ++ [encode .sbyte]

/-- `DISCONNECT` (R72). -/
def disconnectWords : List StepWord := [.line true true, .edgeDisc].map encode

/-- `RECONNECT` (R72). -/
def reconnectWords : List StepWord := [.line false false, .edgeIdle].map encode

end Sys2Proof.Machine
end

