-- ==== Sys2Proof/Machine/Step.lean ====
section
/-! DEFINITION. One step of the machine: the next word of the trace, applied. -/

namespace Sys2Proof.Machine

/-- One step (R74): take the next step word of the trace and apply it. When the trace is empty no agent acts and nothing
happens (R186; log entry 2). -/
def step (s : State) : Host.Outcome State Fault Refusal :=
  match s.fetch with
  | none => .next s
  | some (w, t) => stepWord w t

/-- `s` with the table word `w` of `nbits` bits placed as the next word of the trace and, for a handler, its event pending,
so that the next step runs it (log entry 5). -/
def State.withFetchWord (s : State) (nbits w : Nat) : State := s.place (wordBytes (nbits / 8) w)

end Sys2Proof.Machine
end

