-- ==== Sys2Proof/Safety.lean ====
section
/-! DEFINITION. What counts as a safe or a clean state, in the terms the statements use (spec/10_state.md R19, R25,
40_capture.md R88, 70_reset_and_hazards.md R186). -/

namespace Sys2Proof.Machine

/-- R25 items 1 to 4, of one state: `errorFlag` is 0; `ready` and `hasData` agree; while a frame is ready the timer is
stopped and not pending, and `count` is 3 or 4. -/
structure State.Inv (s : State) : Prop where
  errorFlag_zero : s.errorFlag = false
  ready_iff : s.ready = s.hasData
  timer_stopped : s.hasData = true → s.tRun = false ∧ s.tPend = false
  count_bytes : s.hasData = true → s.count = 3#6 ∨ s.count = 4#6

/-- In the phase IDLE or TRANSMITTING the count is 0 (what R19 and R107 say of a TIMEOUT in that phase rests on it). -/
def State.IdleCountZero (s : State) : Prop := s.phase = .idleOrTransmitting → s.count = 0#6

/-- Ready for a clean pulse of the reader: no frame waiting, both lines idle and that level already served (R88). -/
structure State.LinesQuiet (s : State) : Prop where
  noFrame : s.hasData = false
  p1_idle : s.lineP1 = false
  p0_idle : s.lineP0 = false
  served : s.ePend = false

/-- No handler pending and the timer stopped: nothing happens until the reader or the host acts (R186). -/
structure State.Quiescent (s : State) : Prop where
  noHandler : s.pendingHandlers = []
  timer_off : s.tRun = false

/-- The phase after an operation, by the table of R19; `valid` says that the count is 26 or 34. A TIMEOUT in READY does not
occur (R19), so what stands there is never used. -/
def phaseAfter (i : Instr) (valid : Bool) (p : Phase) : Phase :=
  match i, p with
  | .edgeZero, _ | .edgeOne, _ => .capturing
  | .edgeIdle, .capturing => .capturing
  | .edgeIdle, .idleOrTransmitting | .edgeIdle, .ready => .idleOrTransmitting
  | .edgeDisc, _ => .idleOrTransmitting
  | .timeout, .capturing => if valid then .ready else .idleOrTransmitting
  | .timeout, .idleOrTransmitting | .timeout, .ready => .idleOrTransmitting
  | .sbyte, .capturing => .capturing
  | .sbyte, .idleOrTransmitting | .sbyte, .ready => .idleOrTransmitting
  | .reset, _ => .idleOrTransmitting
  | .line _ _, p | .tick, p | .sshift _, p => p

/-- Two states that differ at most in `errorFlag`. -/
structure State.AgreeButErrorFlag (s t : State) : Prop where
  registers : { s with status := t.status } = t
  hasData : s.hasData = t.hasData
  count : s.count = t.count

end Sys2Proof.Machine
end

