-- ==== Sys2Proof/Certificates/Slice0/Obligations.lean ====
section
/-! DEFINITION. The statements about this machine, each with the rule of spec/ it formalises. A docstring that names a
decision D<n> says that the statement rests, in that clause, on the spec's own choice (92_eei_decisions.md) and not on the
source; the log entry beside it is the model's. -/

open Sys2Proof Sys2Proof.Machine

/-! ## Encoding -/

/-- Decoding the word of an operation gives it back, alone, in front of any bytes, and as a table word; and a word that
decodes is the word of its operation, so each word has one meaning (R71; the encoding is the spec's own, D20). -/
def Obligations.DecodeEncodeAgree : Prop :=
  (∀ (i : Instr) (rest : List StepWord), i.wellFormed = true →
    decode (encode i) = some i ∧ decodeBytes (encode i :: rest) = some (i, rest) ∧
      decodeTableWord 8 (encode i).toNat = some i) ∧
  ∀ (w : StepWord) (i : Instr), decode w = some i → encode i = w

/-- The reserved words are exactly those R73 lists, and they are the words that match no row (D20, log entry 4). -/
def Obligations.ReservedWordsAreThoseListed : Prop :=
  ∀ w : StepWord,
    (decode w = none ↔
      (0x04 ≤ w.toNat ∧ w.toNat ≤ 0x0F) ∨ (0x11 ≤ w.toNat ∧ w.toNat ≤ 0x1F) ∨ (0x22 ≤ w.toNat ∧ w.toNat ≤ 0x3F) ∨
      (0x44 ≤ w.toNat ∧ w.toNat ≤ 0x4F) ∨ (0x51 ≤ w.toNat ∧ w.toNat ≤ 0x5F) ∨ (0x61 ≤ w.toNat ∧ w.toNat ≤ 0xFE)) ∧
    (stepWordOk w = true ↔ decode w ≠ none)

/-- "No word matches two rows" (R71; the encoding is the spec's own, D20). -/
def Obligations.RowsDoNotOverlap : Prop :=
  ∀ w : StepWord, (patterns.filter fun p => p.hits w).length ≤ 1

/-- The words of R71's table, written out bit by bit, stand for their operations (D20). -/
def Obligations.TableWordsDecode : Prop :=
  decode 0b00000001#8 = some (.line false true) ∧ decode 0b00000010#8 = some (.line true false) ∧
  decode 0b00010000#8 = some .tick ∧ decode 0b00100001#8 = some (.sshift true) ∧
  decode 0b01000000#8 = some .edgeIdle ∧ decode 0b01000001#8 = some .edgeZero ∧
  decode 0b01000010#8 = some .edgeOne ∧ decode 0b01000011#8 = some .edgeDisc ∧
  decode 0b01010000#8 = some .timeout ∧ decode 0b01100000#8 = some .sbyte ∧ decode 0b11111111#8 = some .reset

/-! ## The step -/

/-- A step takes the next word of the trace; where it decodes to a well-formed operation, the step is that operation's
meaning on the state past the word (R74; log entry 1). -/
def Obligations.StepRunsDecodedInstruction : Prop :=
  ∀ (s : State) (w : StepWord) (rest : List StepWord) (i : Instr),
    s.trace = w :: rest → decode w = some i → i.wellFormed = true → step s = exec i { s with trace := rest }

/-- A reserved word is refused by name (R73, D20; log entry 4); with no word left nothing happens (log entry 2, the model's
choice). -/
def Obligations.ReservedWordRefusedAndSilenceKeepsState : Prop :=
  (∀ (s : State) (w : StepWord) (rest : List StepWord),
    s.trace = w :: rest → decode w = none → step s = .refused (.reservedWord w)) ∧
  ∀ s : State, s.trace = [] → step s = .next s

/-- A word placed by `withFetchWord` is the operation the very next step runs, enabled, from any state (log entry 5, the
model's convention). -/
def Obligations.PlacedWordRunsNext : Prop :=
  ∀ (s : State) (i : Instr),
    step (s.withFetchWord 8 (encode i).toNat) = exec i (s.arm i) ∧ enabled i (s.arm i) = true

/-- Running the machine over the words of its trace is applying those words in order (R74; log entry 1). -/
def Obligations.RunFollowsTrace : Prop :=
  ∀ (ws rest : List StepWord) (s : State),
    s.trace = ws ++ rest → core.run ws.length s = runTrace ws { s with trace := rest }

/-- A trace is well-formed exactly when every word of it has a step (R74, D20; log entries 3 and 4). -/
def Obligations.WellFormedTraceIsOneThatRuns : Prop :=
  ∀ (ws : List StepWord) (s : State), wellFormedTrace ws s = true ↔ ∃ t, runTrace ws s = .next t

/-- An operation has a step exactly where its "enabled when" of R70 holds, and is refused by name elsewhere (R74, D20; log
entry 3). -/
def Obligations.StepExactlyWhereEnabled : Prop :=
  ∀ (i : Instr) (s : State),
    ((∃ t, exec i s = .next t) ↔ enabled i s = true) ∧
    (enabled i s = false → exec i s = .refused (.notEnabled i))

/-- The handlers enabled are those of the set pending bits, at most one for each source; for a line change it is the one the
levels at service time select, by R67's table (R86, R143, R145; D4, D13, D14, D21, log entries 9, 14, 21). -/
def Obligations.EnabledHandlersAreThePendingOnes : Prop :=
  ∀ (i : Instr) (s : State), handlerSource i ≠ none →
    (enabled i s = true ↔ i ∈ s.pendingHandlers) ∧ s.pendingHandlers.Nodup ∧
    (s.ePend = true → i ∈ s.pendingHandlers → handlerSource i = some .lineChange →
      i = (match s.lineP1, s.lineP0 with
        | false, true => Instr.edgeZero
        | true, false => Instr.edgeOne
        | true, true => Instr.edgeDisc
        | false, false => Instr.edgeIdle))

/-- Every step ends in one of three ways, by the first word of the trace: a next state where no word is left or the word's
operation is enabled; the refusal `reservedWord` of a word that decodes to nothing; the refusal `notEnabled` of a handler that
is not enabled there, never of an operation that no event starts. So no step faults; and no other refusal is ever answered, so
no operation is left without a meaning (R70, R73, R74, R140; D20, log entries 2, 3, 4, 23). -/
def Obligations.StepEndsInNextOrNamedRefusal : Prop :=
  ∀ s : State,
    (((s.trace = [] ∨ ∃ (w : StepWord) (rest : List StepWord) (i : Instr),
          s.trace = w :: rest ∧ decode w = some i ∧ enabled i s = true) ∧
        ∃ t, step s = .next t) ∨
      (∃ (w : StepWord) (rest : List StepWord),
        s.trace = w :: rest ∧ decode w = none ∧ step s = .refused (.reservedWord w)) ∨
      ∃ (w : StepWord) (rest : List StepWord) (i : Instr),
        s.trace = w :: rest ∧ decode w = some i ∧ handlerSource i ≠ none ∧ enabled i s = false ∧
          step s = .refused (.notEnabled i)) ∧
    ∀ r : Refusal, step s = .refused r → (∃ w, r = .reservedWord w) ∨ ∃ i, r = .notEnabled i

/-! ## The operations, each with everything it leaves unchanged -/

/-- LINE: a change of either level sets `ePend`; the present levels again change nothing (R80; D14, log entry 14). -/
def Obligations.LineSetsLevelsAndPendsChange : Prop :=
  ∀ (p1 p0 : Bool) (s : State),
    ((p1, p0) = (s.lineP1, s.lineP0) → exec (.line p1 p0) s = .next s) ∧
    ((p1, p0) ≠ (s.lineP1, s.lineP0) →
      exec (.line p1 p0) s = .next { s with lineP1 := p1, lineP0 := p0, ePend := true })

/-- TICK: nothing while stopped; from all-ones the counter wraps to 0 and sets `tPend`; otherwise it counts by one (R101;
D11, log entry 6). -/
def Obligations.TickCountsWhileRunning : Prop :=
  ∀ s : State,
    (s.tRun = false → exec .tick s = .next s) ∧
    (s.tRun = true → s.tCnt.toNat = 2 ^ Config.timerWidth - 1 →
      exec .tick s = .next { s with tCnt := 0#_, tPend := true }) ∧
    (s.tRun = true → s.tCnt.toNat ≠ 2 ^ Config.timerWidth - 1 →
      ∃ c : BitVec Config.timerWidth, c.toNat = s.tCnt.toNat + 1 ∧ exec .tick s = .next { s with tCnt := c })

/-- EDGE_IDLE: `ePend` falls; with a frame waiting it is discarded; nothing else (R81, R85; D4, D14, log entries 9, 14). -/
def Obligations.EdgeIdleOnlyDiscardsStaleFrame : Prop :=
  ∀ s : State, s.ePend = true → s.lineP1 = false → s.lineP0 = false →
    (s.hasData = false → exec .edgeIdle s = .next { s with ePend := false }) ∧
    (s.hasData = true →
      exec .edgeIdle s = .next { s with ePend := false, status := 0x00#8, buffer := 0#64, ready := false })

/-- EDGE_ZERO: the buffer is left as it is, the count goes up modulo 64 with no carry into the flags, the timer restarts;
with a frame waiting, the frame is discarded first and the bit is the first of the new attempt (R81, R82; D5, D12, D14, log
entries 8, 14, 15). -/
def Obligations.EdgeZeroCountsOneBit : Prop :=
  ∀ s : State, s.ePend = true → s.lineP1 = false → s.lineP0 = true →
    (s.hasData = false → ∃ st : BitVec 8,
      exec .edgeZero s = .next { s with ePend := false, tCnt := Config.timerOffset, tRun := true, status := st } ∧
      (statusCount st).toNat = (s.count.toNat + 1) % 64 ∧
      statusHasData st = s.hasData ∧ statusErrorFlag st = s.errorFlag) ∧
    (s.hasData = true →
      exec .edgeZero s = .next { s with
        ePend := false, tCnt := Config.timerOffset, tRun := true, status := 0x01#8, buffer := 0#64, ready := false })

/-- EDGE_ONE: as EDGE_ZERO, and the bit of the buffer at the old count is set, every other bit kept (R81, R83; D5, D12, D14,
log entries 8, 14, 15). -/
def Obligations.EdgeOneSetsBitAtCount : Prop :=
  ∀ s : State, s.ePend = true → s.lineP1 = true → s.lineP0 = false →
    (s.hasData = false → ∃ (st : BitVec 8) (b : BitVec 64),
      exec .edgeOne s = .next { s with
        ePend := false, tCnt := Config.timerOffset, tRun := true, status := st, buffer := b } ∧
      (statusCount st).toNat = (s.count.toNat + 1) % 64 ∧
      statusHasData st = s.hasData ∧ statusErrorFlag st = s.errorFlag ∧
      ∀ j : Nat, b.getLsbD j = (s.buffer.getLsbD j || decide (j = s.count.toNat))) ∧
    (s.hasData = true →
      exec .edgeOne s = .next { s with
        ePend := false, tCnt := Config.timerOffset, tRun := true, status := 0x01#8, buffer := 1#64, ready := false })

/-- EDGE_DISC: the timer stops, the status byte and `ready` go to 0; the buffer is kept unless a waiting frame is discarded;
`tCnt`, `tPend` and `SR` are not written (R84; C1, C6, D4, D6, D12, D14, log entries 9, 10, 14, 15). -/
def Obligations.EdgeDiscKeepsBuffer : Prop :=
  ∀ s : State, s.ePend = true → s.lineP1 = true → s.lineP0 = true →
    (s.hasData = false →
      exec .edgeDisc s = .next { s with ePend := false, tRun := false, status := 0x00#8, ready := false }) ∧
    (s.hasData = true →
      exec .edgeDisc s = .next { s with
        ePend := false, tRun := false, status := 0x00#8, ready := false, buffer := 0#64 })

/-- TIMEOUT with a count other than 26 and 34: SharedState zeroed, and beside the timer's two bits nothing else written; in
particular not `ready`, `SR`, `sCnt`, `sPend` (R104). -/
def Obligations.TimeoutRejectsOtherLengths : Prop :=
  ∀ s : State, s.tPend = true → s.count ≠ 26#6 → s.count ≠ 34#6 →
    exec .timeout s = .next { s with tRun := false, tPend := false, status := 0x00#8, buffer := 0#64 }

/-- TIMEOUT with a count of 26 or 34: `hasData` and `ready` rise, the byte count 3 or 4 goes unreversed into `SR` and into
`count`, `errorFlag` is as it was, the timer stops, the buffer is the payload of R60, and nothing else changes (R61, R102,
R103; D2, D7, D19, log entries 7, 11, 19). -/
def Obligations.TimeoutAcceptsTwoLengths : Prop :=
  ∀ (s : State) (n N : Nat), s.tPend = true → s.count.toNat = n → (n = 26 ∧ N = 3) ∨ (n = 34 ∧ N = 4) →
    ∃ (st : BitVec 8) (b : BitVec 64),
      exec .timeout s = .next { s with
        tRun := false, tPend := false, status := st, buffer := b, sr := BitVec.ofNat 8 N, ready := true } ∧
      statusHasData st = true ∧ statusErrorFlag st = s.errorFlag ∧ (statusCount st).toNat = N ∧ N = n / 8 ∧
      ∀ j : Nat, b.getLsbD j = (s.buffer.getLsbD (j + 1) && decide (j ≠ n - 2))

/-- Payload extraction: the leading parity position is shifted out, the trailing one, at bit `n − 2` after the shift, is
cleared, every other bit moves down by one and is kept; a clean image of `n` bits leaves nothing at or above bit `n − 2`
(R60). -/
def Obligations.PayloadExtraction : Prop :=
  ∀ (s : State) (n : Nat), s.tPend = true → s.count.toNat = n → n = 26 ∨ n = 34 →
    ∃ t, exec .timeout s = .next t ∧ t.buffer.getLsbD (n - 2) = false ∧
      (∀ j : Nat, j ≠ n - 2 → t.buffer.getLsbD j = s.buffer.getLsbD (j + 1)) ∧
      ((∀ j : Nat, n ≤ j → s.buffer.getLsbD j = false) → ∀ j : Nat, n - 2 ≤ j → t.buffer.getLsbD j = false)

/-- Parity is not checked: two frames that differ only in their parity positions are both accepted, with the same next state,
so the parity values never reach the host (R108). -/
def Obligations.ParityNotChecked : Prop :=
  ∀ (s : State) (b : BitVec 64) (n : Nat), s.tPend = true → s.count.toNat = n → n = 26 ∨ n = 34 →
    (∀ j : Nat, j ≠ 0 → j ≠ n - 1 → b.getLsbD j = s.buffer.getLsbD j) →
    ∃ t, exec .timeout s = .next t ∧ exec .timeout { s with buffer := b } = .next t ∧ t.hasData = true ∧ t.ready = true

/-- SSHIFT: the host samples `SR[7]` before the shift; the register shifts up with `sdi` into bit 0; the counter counts
modulo 8 and its wrap sets `sPend`; nothing else changes (R122; D8, D10, log entries 12, 13). -/
def Obligations.SshiftShiftsOneBit : Prop :=
  ∀ (sdi : Bool) (s : State),
    hostSees (.sshift sdi) s = [s.sr.getLsbD 7] ∧
    ∃ (r : BitVec 8) (c : BitVec 3),
      exec (.sshift sdi) s = .next { s with
        sr := r, sCnt := c, sPend := s.sPend || decide (s.sCnt.toNat = 7) } ∧
      r.getLsbD 0 = sdi ∧ (∀ k : Nat, k < 7 → r.getLsbD (k + 1) = s.sr.getLsbD k) ∧
      c.toNat = (s.sCnt.toNat + 1) % 8

/-- SBYTE: `ready` and `sPend` fall, the status byte is zeroed, `SR` takes the low byte of the buffer reversed, the buffer
shifts down by 8 with zeros from the top; nothing else changes, whatever the phase (R123; D26, log entry 20). -/
def Obligations.SbyteLoadsNextByte : Prop :=
  ∀ s : State, s.sPend = true →
    ∃ (r : BitVec 8) (b : BitVec 64),
      exec .sbyte s = .next { s with ready := false, sPend := false, status := 0x00#8, sr := r, buffer := b } ∧
      (∀ k : Nat, k < 8 → r.getLsbD (7 - k) = s.buffer.getLsbD k) ∧
      ∀ j : Nat, b.getLsbD j = s.buffer.getLsbD (j + 8)

/-- The bit reversal of a byte: bit `7 − k` of the result is bit `k`, twice is the identity, it is the three swaps with
their masks, and its fixed points are the sixteen of R121. -/
def Obligations.Rev8ReversesBits : Prop :=
  ∀ b : BitVec 8,
    (∀ k : Fin 8, (rev8 b).getLsbD (7 - k) = b.getLsbD k) ∧ rev8 (rev8 b) = b ∧
    (let b₁ := ((b &&& 0xF0#8) >>> 4) ||| ((b &&& 0x0F#8) <<< 4)
     let b₂ := ((b₁ &&& 0xCC#8) >>> 2) ||| ((b₁ &&& 0x33#8) <<< 2)
     rev8 b = (((b₂ &&& 0xAA#8) >>> 1) ||| ((b₂ &&& 0x55#8) <<< 1))) ∧
    (rev8 b = b ↔ b ∈ [0x00#8, 0x18#8, 0x24#8, 0x3C#8, 0x42#8, 0x5A#8, 0x66#8, 0x7E#8,
      0x81#8, 0x99#8, 0xA5#8, 0xBD#8, 0xC3#8, 0xDB#8, 0xE7#8, 0xFF#8])

/-- Every payload byte passes through `rev8` between the buffer and `SR`: output bit `7 − k` is input bit `k`, and the
reversal is an involution (R63). -/
def Obligations.PayloadBytePassesThroughRev8 : Prop :=
  (∀ s : State, s.sPend = true →
    ∃ t, exec .sbyte s = .next t ∧ t.sr = rev8 (bufferByte s.buffer 0) ∧
      ∀ k : Nat, k < 8 → t.sr.getLsbD (7 - k) = (bufferByte s.buffer 0).getLsbD k) ∧
  ∀ b : BitVec 8, rev8 (rev8 b) = b

/-- RESET, always: every register as after reset but the line levels, which are the reader's, and the trace, which is what
the agents do next (R165, D16, log entries 1, 16). -/
def Obligations.ResetSetsResetValues : Prop :=
  ∀ s : State, exec .reset s =
    .next { State.reset with lineP1 := s.lineP1, lineP0 := s.lineP0, trace := s.trace }

/-- The reset values: SharedState all-zero is the source's; the others are the spec's choice (R26, D16, log entry 16), the
idle lines the model's (log entry 17). -/
def Obligations.ResetValues : Prop :=
  State.reset.status = 0x00#8 ∧ State.reset.buffer = 0#64 ∧ State.reset.sr = 0x00#8 ∧ State.reset.ready = false ∧
  State.reset.tRun = false ∧ State.reset.tCnt = 0#_ ∧ State.reset.tPend = false ∧ State.reset.sCnt = 0#3 ∧
  State.reset.sPend = false ∧ State.reset.ePend = false ∧ State.reset.lineP1 = false ∧ State.reset.lineP0 = false ∧
  State.reset.phase = .idleOrTransmitting

/-! ## Invariants -/

/-- R25's items hold, and the count is 0, right after reset (they rest on D2, D5, D16; log entries 7, 8, 16). -/
def Obligations.InvariantHoldsAtReset : Prop := State.reset.Inv ∧ State.reset.IdleCountZero

/-- Every step keeps R25 items 1 to 4: `errorFlag` 0, `ready` exactly with `hasData`, the timer stopped and not pending while
a frame is ready, the count then 3 or 4 (derived by the spec; rests on D2, D5, D7; log entries 7, 8, 11). -/
def Obligations.StepKeepsInvariant : Prop := ∀ s t : State, s.Inv → step s = .next t → t.Inv

/-- Every step keeps it that the count is 0 in IDLE or TRANSMITTING (R107; D6; log entry 10). -/
def Obligations.StepKeepsIdleCountZero : Prop :=
  ∀ s t : State, s.IdleCountZero → step s = .next t → t.IdleCountZero

/-- In every state reachable from RESET, whatever the reader, the timer clock, the host and the arbitration do, R25 items 1
to 4 hold: from any state at all, after RESET and any trace (derived by the spec; D2, D5, D7, D16; log entries 7, 8, 11,
16). -/
def Obligations.InvariantAfterResetAndAnyTrace : Prop :=
  ∀ (s t : State) (ws : List StepWord), runTrace (encode .reset :: ws) s = .next t → t.Inv ∧ t.IdleCountZero

/-- R25 item 4's second half: while a frame is ready and stays ready, only SSHIFT changes `SR`, and at acceptance `SR` holds
the count (derived by the spec; D7; log entry 11). -/
def Obligations.ReadyFrameKeepsCountByte : Prop :=
  ∀ (i : Instr) (s t : State), exec i s = .next t → t.hasData = true →
    (s.hasData = true → (∀ sdi, i ≠ .sshift sdi) → s.Inv → t.sr = s.sr) ∧
    (s.hasData = false → t.sr = t.count.setWidth 8)

/-- TIMEOUT is not enabled while a frame is ready, in a state that meets R25 (derived by the spec); the total handler function
applied there rejects and leaves `ready` as it is (R106; D18, log entry 18). -/
def Obligations.NoTimeoutWhileReady : Prop :=
  ∀ s : State, s.Inv → s.hasData = true →
    exec .timeout s = .refused (.notEnabled .timeout) ∧
    s.timeout = { s with tRun := false, tPend := false, status := 0x00#8, buffer := 0#64 }

/-! ## Whole-machine rules -/

/-- `errorFlag` is never set (an operation leaves it 0 where it was 0, and it is 0 after RESET and any trace) and never read
(states that differ only in it go to next states that differ at most in it, and are refused alike) (R66). -/
def Obligations.ErrorFlagNeverSetNeverRead : Prop :=
  (∀ (i : Instr) (s t : State), exec i s = .next t → s.errorFlag = false → t.errorFlag = false) ∧
  (∀ (s t : State) (ws : List StepWord), runTrace (encode .reset :: ws) s = .next t → t.errorFlag = false) ∧
  ∀ (i : Instr) (s s' : State), s.AgreeButErrorFlag s' →
    (∀ t, exec i s = .next t → ∃ t', exec i s' = .next t' ∧ t.AgreeButErrorFlag t') ∧
    ∀ r, exec i s = .refused r → exec i s' = .refused r

/-- `hasData` is 1 after an operation exactly when the operation accepted a frame, or it was 1 and the operation is none of
the handlers and not RESET (R13; position D2). `ready` is 1 exactly when the operation accepted a frame, or it was 1 and the
operation is no SBYTE, no RESET, no EDGE_DISC and discarded no stale frame (R17, R28; D18). -/
def Obligations.HandshakeFlagWriters : Prop :=
  ∀ (i : Instr) (s t : State), exec i s = .next t →
    (t.hasData = true ↔
      (i = .timeout ∧ (s.count = 26#6 ∨ s.count = 34#6)) ∨
      (s.hasData = true ∧ handlerSource i = none ∧ i ≠ .reset)) ∧
    (t.ready = true ↔
      (i = .timeout ∧ (s.count = 26#6 ∨ s.count = 34#6)) ∨
      (s.ready = true ∧ i ≠ .sbyte ∧ i ≠ .reset ∧ i ≠ .edgeDisc ∧
        (handlerSource i = some .lineChange → s.hasData = false)))

/-- Who sets and who clears `tRun`, `tPend`, `sPend`, `ePend`: exactly the operations of R28's table (D10, D11, D12, D14; log
entries 6, 13, 14, 15). -/
def Obligations.PendingFlagWriters : Prop :=
  ∀ (i : Instr) (s t : State), exec i s = .next t →
    (t.tRun = true ↔ i = .edgeZero ∨ i = .edgeOne ∨
      (s.tRun = true ∧ i ≠ .edgeDisc ∧ i ≠ .timeout ∧ i ≠ .reset)) ∧
    (t.tPend = true ↔ (i = .tick ∧ s.tRun = true ∧ s.tCnt = BitVec.allOnes _) ∨
      (s.tPend = true ∧ i ≠ .timeout ∧ i ≠ .reset)) ∧
    (t.sPend = true ↔ ((∃ sdi, i = .sshift sdi) ∧ s.sCnt = 7#3) ∨
      (s.sPend = true ∧ i ≠ .sbyte ∧ i ≠ .reset)) ∧
    (t.ePend = true ↔ (∃ p1 p0, i = .line p1 p0 ∧ (p1, p0) ≠ (s.lineP1, s.lineP0)) ∨
      (s.ePend = true ∧ handlerSource i ≠ some .lineChange ∧ i ≠ .reset))

/-- The other registers change only in the operations that R10 names as their writers: `buffer`, `SR`, `tCnt`, `sCnt`, the
lines; the status byte and `buffer`, which are SharedState, only in the handlers and RESET (R10, R47, R148; D1, D10, D11,
D14); and no operation touches the trace (log entry 1). -/
def Obligations.RegisterWriters : Prop :=
  ∀ (i : Instr) (s t : State), exec i s = .next t →
    (t.status ≠ s.status ∨ t.buffer ≠ s.buffer → handlerSource i ≠ none ∨ i = .reset) ∧
    (t.buffer ≠ s.buffer → (s.hasData = true ∧ handlerSource i = some .lineChange) ∨
      i = .edgeOne ∨ i = .timeout ∨ i = .sbyte ∨ i = .reset) ∧
    (t.sr ≠ s.sr → (∃ sdi, i = .sshift sdi) ∨ i = .timeout ∨ i = .sbyte ∨ i = .reset) ∧
    (t.tCnt ≠ s.tCnt → i = .edgeZero ∨ i = .edgeOne ∨ i = .tick ∨ i = .reset) ∧
    (t.sCnt ≠ s.sCnt → (∃ sdi, i = .sshift sdi) ∨ i = .reset) ∧
    ((∀ p1 p0, i ≠ .line p1 p0) → t.lineP1 = s.lineP1 ∧ t.lineP0 = s.lineP0) ∧
    t.trace = s.trace

/-- The phase after an operation is R19's, in every state that meets R25 and the idle count (derived by the spec; D4, D12,
D27; log entries 9, 15). -/
def Obligations.PhaseTransitions : Prop :=
  ∀ (i : Instr) (s t : State), s.Inv → s.IdleCountZero → exec i s = .next t →
    t.phase = phaseAfter i (s.count == 26#6 || s.count == 34#6) s.phase

/-- Every EDGE operation served while a frame waits drops the whole frame first: `ready` falls, and the count and the buffer
hold the new bit at most; `SR` keeps the stale count byte (R81, R180; D4, D14; log entries 9, 14). -/
def Obligations.StaleFrameDiscarded : Prop :=
  ∀ (i : Instr) (s : State), handlerSource i = some .lineChange → enabled i s = true → s.hasData = true →
    ∃ t, exec i s = .next t ∧ t.hasData = false ∧ t.ready = false ∧ t.sr = s.sr ∧
      t.count = (if i = .edgeZero ∨ i = .edgeOne then 1#6 else 0#6) ∧
      t.buffer = if i = .edgeOne then 1#64 else 0#64

/-- The operations that R47 calls idempotent: performed twice, LINE with equal operands, EDGE_IDLE, EDGE_DISC, a rejecting
TIMEOUT and RESET leave what once leaves; of the handlers it is their total functions that are performed (R47, R74, R165 (a);
D6, D14, D16, D20; log entries 3, 10, 14, 16). -/
def Obligations.IdempotentOperations : Prop :=
  ∀ s : State,
    (∀ p1 p0 : Bool, ∃ t, exec (.line p1 p0) s = .next t ∧ exec (.line p1 p0) t = .next t) ∧
    s.edgeIdle.edgeIdle = s.edgeIdle ∧ s.edgeDisc.edgeDisc = s.edgeDisc ∧
    (s.count ≠ 26#6 → s.count ≠ 34#6 → s.timeout.timeout = s.timeout) ∧
    ∃ t, exec .reset s = .next t ∧ exec .reset t = .next t

/-- A quiescent state stays as it is until the reader, the host or RESET acts: no handler has a step and a TICK changes
nothing (R186; D14; log entries 3, 14). -/
def Obligations.QuiescentStateStays : Prop :=
  ∀ s : State, s.Quiescent →
    exec .tick s = .next s ∧ ∀ i : Instr, handlerSource i ≠ none → exec i s = .refused (.notEnabled i)

/-- The serial byte boundary moves with every host clock and only RESET re-aligns it: over a trace without RESET, `sCnt`
advances by the number of SSHIFT words modulo 8 (R45 (b), R183; D10, log entry 13). -/
def Obligations.SerialFramingCountsEveryClock : Prop :=
  ∀ (ws : List StepWord) (s t : State), runTrace ws s = .next t → encode .reset ∉ ws →
    t.sCnt.toNat = (s.sCnt.toNat + ws.countP fun w => w &&& 0xFE#8 == 0x20#8) % 8

/-- The ready pin is at READY_ACTIVE_LEVEL exactly while `ready` is 1, whatever that level is, and an input pin is low
exactly while its line is pulsing (R17, R24; D3, D15; log entry 22). -/
def Obligations.PinsFollowRegisters : Prop :=
  ∀ s : State,
    (s.readyPin = Config.readyActiveLevel ↔ s.ready = true) ∧
    (s.d0Pin = false ↔ s.lineP0 = true) ∧ (s.d1Pin = false ↔ s.lineP1 = true)

/-! ## Hazards, which the model must show -/

/-- A pulse whose trailing edge comes before service is lost without trace: one EDGE_IDLE serves both edges (R175; D21, log
entry 14). -/
def Obligations.PulseLostBeforeService : Prop :=
  ∀ (s : State) (p1 p0 : Bool), s.LinesQuiet → (p1, p0) ≠ (false, false) →
    runTrace [encode (.line p1 p0), encode (.line false false), encode .edgeIdle] s = .next s

/-- The timer race: the overflow has been latched at a count of 26 and a further pulse of D1 is pending. Capture first: the
frame is rejected (R176; P6 order a). Validator first: it is accepted, and the next handler discards it (R103, R81; P6 order
b). The orders rest on D12 and D13 (log entries 15, 21); that the accepted status byte is 0x83 on D2 and D19 (log entries 7,
19); that `SR` holds 0x03 on D7 (log entry 11). -/
def Obligations.TimerRaceLosesFrameInBothOrders : Prop :=
  ∀ s : State, s.Inv → s.tPend = true → s.ePend = true → s.lineP1 = true → s.lineP0 = false → s.count = 26#6 →
    (∃ t, runTrace [encode .edgeOne, encode .timeout] s = .next t ∧
      t.status = 0x00#8 ∧ t.buffer = 0#64 ∧ t.ready = false ∧ t.sr = s.sr ∧ t.tRun = false) ∧
    ∃ u t, runTrace [encode .timeout] s = .next u ∧ u.ready = true ∧ u.status = 0x83#8 ∧
      runTrace [encode .edgeOne] u = .next t ∧
      t.status = 0x01#8 ∧ t.buffer = 1#64 ∧ t.ready = false ∧ t.sr = 0x03#8 ∧ t.tRun = true

/-- A disconnect drops the attempt whatever length it had reached, without raising `ready`; a TIMEOUT latched before it then
finds a count of 0 and clears the residue (R84, R107; C1, C6, D4, D6, D12; log entries 9, 10, 15). -/
def Obligations.DisconnectDropsAttempt : Prop :=
  ∀ s : State, enabled .edgeDisc s = true →
    ∃ t, exec .edgeDisc s = .next t ∧ t.status = 0x00#8 ∧ t.ready = false ∧ t.tPend = s.tPend ∧
      (s.tPend = true → ∃ u, exec .timeout t = .next u ∧ u.status = 0x00#8 ∧ u.buffer = 0#64 ∧ u.ready = false)

/-! ## Frames and streams -/

/-- One clean pulse, each edge served before the next: the bit is OR-ed in at the count, the count goes up modulo 64, the
timer restarts, everything else is as it was (R88; D5, D14; log entries 8, 14). -/
def Obligations.CleanPulseTakesOneBit : Prop :=
  ∀ (s : State) (v : Bool), s.LinesQuiet →
    ∃ (st : BitVec 8) (b : BitVec 64),
      runTrace (pulseWords v) s =
        .next { s with tCnt := Config.timerOffset, tRun := true, status := st, buffer := b } ∧
      (statusCount st).toNat = (s.count.toNat + 1) % 64 ∧
      statusHasData st = false ∧ statusErrorFlag st = s.errorFlag ∧
      ∀ j : Nat, b.getLsbD j = (s.buffer.getLsbD j || (v && decide (j = s.count.toNat)))

/-- The capture image of a frame of ANY length over whatever the buffer held: the bit that arrived `i`-th is OR-ed in at bit
`i mod 64`, the count is the length modulo 64, everything else but the timer's run is as it was (R42, R59, R65, R177; D5,
D14; log entries 8, 14). -/
def Obligations.CaptureImageOfAnyFrame : Prop :=
  ∀ (bits : List Bool) (s : State), s.LinesQuiet → s.status = 0x00#8 → bits ≠ [] →
    ∃ b : BitVec 64,
      runTrace (frameWords bits) s =
        .next { s with
          tCnt := Config.timerOffset, tRun := true, status := BitVec.ofNat 8 (bits.length % 64), buffer := b } ∧
      ∀ j : Nat, b.getLsbD j = true ↔
        s.buffer.getLsbD j = true ∨ ∃ i : Nat, i % 64 = j ∧ bits[i]? = some true

/-- The inter-bit window: `k` TICKs after a restart the overflow is pending exactly when `k` has reached `T_TIMEOUT`, and the
TICKs change nothing but the counter (R100; D11, log entry 6). -/
def Obligations.TimeoutWindow : Prop :=
  ∀ (k : Nat) (s : State), s.tRun = true → s.tPend = false → s.tCnt = Config.timerOffset →
    ∃ c : BitVec Config.timerWidth,
      runTrace (List.replicate k (encode .tick)) s =
        .next { s with tCnt := c, tPend := decide (Config.timeoutTicks ≤ k) }

/-- EXPIRE: the window runs out and is served, from any counter value (R72; D11, D20; log entry 6). -/
def Obligations.ExpireServesTimeout : Prop :=
  ∀ s : State, s.tRun = true →
    runTrace (expireWords s.tCnt) s = exec .timeout { s with tCnt := 0#_, tPend := true }

/-- A HOSTBYTE on a byte boundary returns `SR`, most significant bit first, and leaves the next byte in it, whatever the host
drives on `sdi` and whatever the phase (R72, R124, R127; D8, D10, D26; log entries 12, 13, 20). -/
def Obligations.HostByteReadsShiftRegister : Prop :=
  ∀ (sdi : Vector Bool 8) (s : State), s.sCnt = 0#3 →
    ∃ bits : List Bool,
      runHost (hostByteWords sdi) s =
        .next (bits, { s with
          ready := false, sPend := false, status := 0x00#8, sr := rev8 (bufferByte s.buffer 0),
          buffer := s.buffer >>> 8 }) ∧
      bits.length = 8 ∧ byteOfBits bits = s.sr

/-- The stream of any number of HOSTBYTEs on a byte boundary with no capture between: first what `SR` held, then the bytes of
the buffer from the lowest, each reversed; after `k + 1` of them the buffer has moved down by that many bytes and `SR` holds
the byte the next one returns; no end marker (R62, R124, R125; D8, D10, D26; log entries 12, 13, 20). -/
def Obligations.HostStream : Prop :=
  ∀ (sdi : Vector Bool 8) (sdis : List (Vector Bool 8)) (s : State), s.sCnt = 0#3 →
    ∃ bytes : List (List Bool),
      runHost ((sdi :: sdis).flatMap hostByteWords) s =
        .next (bytes.flatten, { s with
          ready := false, sPend := false, status := 0x00#8,
          sr := rev8 (bufferByte s.buffer sdis.length), buffer := s.buffer >>> (8 * (sdis.length + 1)) }) ∧
      (∀ b ∈ bytes, b.length = 8) ∧
      bytes.map byteOfBits = s.sr :: (List.range sdis.length).map fun m => rev8 (bufferByte s.buffer m)

/-- A whole card read: a frame of 26 or 34 bits from an idle block, the window run out, and `N + 1` host bytes deliver the
byte count `N` and then the payload bits in exactly the order they arrived, without the two parity positions; `ready` is up
until the host clocks, and the block ends with every register 0 but the restarted and wrapped timer, which is 0 too (R44,
R62, R124, S1, S2, S7; D7, D8, D10, D11, D26; log entries 6, 11, 12, 13, 20). -/
def Obligations.FrameIsDeliveredInArrivalOrder : Prop :=
  ∀ (bits : List Bool) (sdis : List (Vector Bool 8)) (s : State) (N : Nat),
    s.LinesQuiet → s.status = 0x00#8 → s.buffer = 0#64 → s.sCnt = 0#3 →
    (bits.length = 26 ∧ N = 3) ∨ (bits.length = 34 ∧ N = 4) → sdis.length = N + 1 →
    ∃ (u t : State) (count : List Bool),
      runTrace (frameWords bits ++ expireWords Config.timerOffset) s = .next u ∧ u.ready = true ∧ u.hasData = true ∧
      runHost (sdis.flatMap hostByteWords) u = .next (count ++ (bits.drop 1).take (8 * N), t) ∧
      count.length = 8 ∧ byteOfBits count = BitVec.ofNat 8 N ∧
      t = { s with
        status := 0x00#8, buffer := 0#64, sr := 0x00#8, ready := false, tRun := false, tCnt := 0#_, tPend := false,
        sPend := false }

/-- A frame from an idle block raises `ready` at the end of the window exactly when its length modulo 64 is 26 or 34 (so 90
and 98 pulses are accepted too); otherwise SharedState is zeroed and nothing else is left of it (R64, R65, R104; D5, D11, D14;
log entries 6, 8, 14). -/
def Obligations.OnlyTwoLengthsRaiseReady : Prop :=
  ∀ (bits : List Bool) (s : State), s.LinesQuiet → s.status = 0x00#8 → s.ready = false → bits ≠ [] →
    ∃ t, runTrace (frameWords bits ++ expireWords Config.timerOffset) s = .next t ∧
      (t.ready = true ↔ bits.length % 64 = 26 ∨ bits.length % 64 = 34) ∧
      (t.ready = false → t = { s with
        tRun := false, tCnt := 0#_, tPend := false, status := 0x00#8, buffer := 0#64 })
end

