-- ==== Sys2Proof/Laws/Bits.lean ====
section
/-! SUPPORT. The bit-level facts of the status byte, the buffer, the counters and the bytes: one lemma a function, which
later proofs cite instead of unfolding. -/

namespace Sys2Proof.Machine

@[simp] theorem statusHasData_pack (h e : Bool) (c : BitVec 6) : statusHasData (packStatus h e c) = h := by
  cases h <;> cases e <;> revert c <;> decide

@[simp] theorem statusErrorFlag_pack (h e : Bool) (c : BitVec 6) : statusErrorFlag (packStatus h e c) = e := by
  cases h <;> cases e <;> revert c <;> decide

@[simp] theorem statusCount_pack (h e : Bool) (c : BitVec 6) : statusCount (packStatus h e c) = c := by
  cases h <;> cases e <;> revert c <;> decide

/-- The three fields are the whole status byte (R55). -/
theorem packStatus_fields (st : BitVec 8) : packStatus (statusHasData st) (statusErrorFlag st) (statusCount st) = st := by
  revert st
  decide

@[simp] theorem statusHasData_zero : statusHasData 0#8 = false := rfl

@[simp] theorem statusErrorFlag_zero : statusErrorFlag 0#8 = false := rfl

@[simp] theorem statusCount_zero : statusCount 0#8 = 0#6 := rfl

@[simp] theorem statusHasData_bumpCount (st : BitVec 8) : statusHasData (bumpCount st) = statusHasData st := by
  simp [bumpCount]

@[simp] theorem statusErrorFlag_bumpCount (st : BitVec 8) : statusErrorFlag (bumpCount st) = statusErrorFlag st := by
  simp [bumpCount]

@[simp] theorem statusCount_bumpCount (st : BitVec 8) : statusCount (bumpCount st) = statusCount st + 1 := by
  simp [bumpCount]

@[simp] theorem statusHasData_readyStatus (st : BitVec 8) (n : BitVec 6) : statusHasData (readyStatus st n) = true := by
  simp [readyStatus]

@[simp] theorem statusErrorFlag_readyStatus (st : BitVec 8) (n : BitVec 6) :
    statusErrorFlag (readyStatus st n) = statusErrorFlag st := by
  simp [readyStatus]

@[simp] theorem statusCount_readyStatus (st : BitVec 8) (n : BitVec 6) : statusCount (readyStatus st n) = n := by
  simp [readyStatus]

/-- The first bit counted (R82). -/
theorem bumpCount_zero : bumpCount 0x00#8 = 0x01#8 := by decide

/-- The first bit set (R83). -/
theorem setBit_zero : setBit 0#64 0#6 = 1#64 := by decide

theorem validLength_iff (n : BitVec 6) : validLength n = true ↔ n = 26#6 ∨ n = 34#6 := by
  simp [validLength]

/-- A bit of `buffer` after one bit is set (R68). -/
theorem getLsbD_setBit (b : BitVec 64) (i : BitVec 6) (j : Nat) :
    (setBit b i).getLsbD j = (b.getLsbD j || decide (j = i.toNat)) := by
  have hi := i.isLt
  simp only [setBit, BitVec.getLsbD_or, BitVec.getLsbD_shiftLeft, BitVec.getLsbD_one]
  congr 1
  by_cases h : j = i.toNat
  · subst h
    simp [hi]
  · simp only [h, decide_false]
    simp
    omega

/-- A bit of `buffer` after one bit is cleared (R68). -/
theorem getLsbD_clearBit (b : BitVec 64) (k j : Nat) :
    (clearBit b k).getLsbD j = (b.getLsbD j && decide (j ≠ k)) := by
  simp only [clearBit, BitVec.getLsbD_and, BitVec.getLsbD_not, BitVec.getLsbD_shiftLeft, BitVec.getLsbD_one]
  by_cases hj : j < 64
  · by_cases h : j = k
    · subst h
      simp [hj]
    · have : j < k ∨ j - k ≠ 0 := by omega
      rcases this with h' | h' <;> simp [hj, h, h']
  · simp [BitVec.getLsbD_of_ge b j (by omega)]

/-- A bit of the payload extracted from a frame of `n` bits (R60). -/
theorem getLsbD_payload (b : BitVec 64) (n : BitVec 6) (j : Nat) :
    (payload b n).getLsbD j = (b.getLsbD (j + 1) && decide (j ≠ n.toNat - 2)) := by
  simp [payload, getLsbD_clearBit, Nat.add_comm]

/-- A counter's wrap is exactly the count from all-ones (R101, R122). -/
theorem countUp_wraps {w : Nat} (c : BitVec w) : (countUp c).2 = decide (c = BitVec.allOnes w) := by
  unfold countUp
  split <;> simp_all

/-- A counter counts modulo `2^w` (R68). -/
theorem countUp_count {w : Nat} (c : BitVec w) : (countUp c).1 = c + 1#w := by
  unfold countUp
  split
  · next h =>
    subst h
    apply BitVec.eq_of_toNat_eq
    have := Nat.two_pow_pos w
    rcases Nat.eq_zero_or_pos w with rfl | hw
    · rfl
    · have h1 : 1 % 2 ^ w = 1 := Nat.mod_eq_of_lt (Nat.one_lt_two_pow (by omega))
      simp [BitVec.toNat_add, h1, Nat.sub_add_cancel this]
  · rfl

/-- The bits of the serial register after a shift (R122). -/
theorem getLsbD_shiftIn (r : BitVec 8) (sdi : Bool) :
    (shiftIn r sdi).getLsbD 0 = sdi ∧ ∀ k : Fin 7, (shiftIn r sdi).getLsbD (k + 1) = r.getLsbD k := by
  revert r sdi
  decide

/-- `rev8` puts bit `k` at bit `7 − k` (R121). -/
theorem getLsbD_rev8 (b : BitVec 8) (k : Fin 8) : (rev8 b).getLsbD (7 - k) = b.getLsbD k := by
  revert b k
  decide

end Sys2Proof.Machine
end

