-- ==== Sys2Proof/Laws/State.lean ====
section
/-! SUPPORT. One lemma for each register under each unconditional update, true by definition, so that no later proof unfolds
a record update; and when a state's prologue discards. -/

namespace Sys2Proof.Machine

variable (s : State)

@[simp] theorem State.zeroShared_status : s.zeroShared.status = 0x00#8 := rfl
@[simp] theorem State.zeroShared_buffer : s.zeroShared.buffer = 0#64 := rfl
@[simp] theorem State.zeroShared_sr : s.zeroShared.sr = s.sr := rfl
@[simp] theorem State.zeroShared_ready : s.zeroShared.ready = s.ready := rfl
@[simp] theorem State.zeroShared_tRun : s.zeroShared.tRun = s.tRun := rfl
@[simp] theorem State.zeroShared_tCnt : s.zeroShared.tCnt = s.tCnt := rfl
@[simp] theorem State.zeroShared_tPend : s.zeroShared.tPend = s.tPend := rfl
@[simp] theorem State.zeroShared_sCnt : s.zeroShared.sCnt = s.sCnt := rfl
@[simp] theorem State.zeroShared_sPend : s.zeroShared.sPend = s.sPend := rfl
@[simp] theorem State.zeroShared_lineP1 : s.zeroShared.lineP1 = s.lineP1 := rfl
@[simp] theorem State.zeroShared_lineP0 : s.zeroShared.lineP0 = s.lineP0 := rfl
@[simp] theorem State.zeroShared_ePend : s.zeroShared.ePend = s.ePend := rfl
@[simp] theorem State.zeroShared_trace : s.zeroShared.trace = s.trace := rfl

@[simp] theorem State.restartTimer_status : s.restartTimer.status = s.status := rfl
@[simp] theorem State.restartTimer_buffer : s.restartTimer.buffer = s.buffer := rfl
@[simp] theorem State.restartTimer_sr : s.restartTimer.sr = s.sr := rfl
@[simp] theorem State.restartTimer_ready : s.restartTimer.ready = s.ready := rfl
@[simp] theorem State.restartTimer_tRun : s.restartTimer.tRun = true := rfl
@[simp] theorem State.restartTimer_tCnt : s.restartTimer.tCnt = Config.timerOffset := rfl
@[simp] theorem State.restartTimer_tPend : s.restartTimer.tPend = s.tPend := rfl
@[simp] theorem State.restartTimer_sCnt : s.restartTimer.sCnt = s.sCnt := rfl
@[simp] theorem State.restartTimer_sPend : s.restartTimer.sPend = s.sPend := rfl
@[simp] theorem State.restartTimer_lineP1 : s.restartTimer.lineP1 = s.lineP1 := rfl
@[simp] theorem State.restartTimer_lineP0 : s.restartTimer.lineP0 = s.lineP0 := rfl
@[simp] theorem State.restartTimer_ePend : s.restartTimer.ePend = s.ePend := rfl
@[simp] theorem State.restartTimer_trace : s.restartTimer.trace = s.trace := rfl

@[simp] theorem State.countBit_status : s.countBit.status = bumpCount s.status := rfl
@[simp] theorem State.countBit_buffer : s.countBit.buffer = s.buffer := rfl
@[simp] theorem State.countBit_sr : s.countBit.sr = s.sr := rfl
@[simp] theorem State.countBit_ready : s.countBit.ready = s.ready := rfl
@[simp] theorem State.countBit_tRun : s.countBit.tRun = true := rfl
@[simp] theorem State.countBit_tCnt : s.countBit.tCnt = Config.timerOffset := rfl
@[simp] theorem State.countBit_tPend : s.countBit.tPend = s.tPend := rfl
@[simp] theorem State.countBit_sCnt : s.countBit.sCnt = s.sCnt := rfl
@[simp] theorem State.countBit_sPend : s.countBit.sPend = s.sPend := rfl
@[simp] theorem State.countBit_lineP1 : s.countBit.lineP1 = s.lineP1 := rfl
@[simp] theorem State.countBit_lineP0 : s.countBit.lineP0 = s.lineP0 := rfl
@[simp] theorem State.countBit_ePend : s.countBit.ePend = s.ePend := rfl
@[simp] theorem State.countBit_trace : s.countBit.trace = s.trace := rfl

@[simp] theorem State.line_status (p1 p0 : Bool) : (s.line p1 p0).status = s.status := rfl
@[simp] theorem State.line_buffer (p1 p0 : Bool) : (s.line p1 p0).buffer = s.buffer := rfl
@[simp] theorem State.line_sr (p1 p0 : Bool) : (s.line p1 p0).sr = s.sr := rfl
@[simp] theorem State.line_ready (p1 p0 : Bool) : (s.line p1 p0).ready = s.ready := rfl
@[simp] theorem State.line_tRun (p1 p0 : Bool) : (s.line p1 p0).tRun = s.tRun := rfl
@[simp] theorem State.line_tCnt (p1 p0 : Bool) : (s.line p1 p0).tCnt = s.tCnt := rfl
@[simp] theorem State.line_tPend (p1 p0 : Bool) : (s.line p1 p0).tPend = s.tPend := rfl
@[simp] theorem State.line_sCnt (p1 p0 : Bool) : (s.line p1 p0).sCnt = s.sCnt := rfl
@[simp] theorem State.line_sPend (p1 p0 : Bool) : (s.line p1 p0).sPend = s.sPend := rfl
@[simp] theorem State.line_lineP1 (p1 p0 : Bool) : (s.line p1 p0).lineP1 = p1 := rfl
@[simp] theorem State.line_lineP0 (p1 p0 : Bool) : (s.line p1 p0).lineP0 = p0 := rfl
@[simp] theorem State.line_ePend (p1 p0 : Bool) : (s.line p1 p0).ePend = (s.ePend || (p1, p0) != (s.lineP1, s.lineP0)) := rfl
@[simp] theorem State.line_trace (p1 p0 : Bool) : (s.line p1 p0).trace = s.trace := rfl

@[simp] theorem State.accept_status (n : BitVec 6) : (s.accept n).status = readyStatus s.status (byteCount n) := rfl
@[simp] theorem State.accept_buffer (n : BitVec 6) : (s.accept n).buffer = payload s.buffer n := rfl
@[simp] theorem State.accept_sr (n : BitVec 6) : (s.accept n).sr = (byteCount n).setWidth 8 := rfl
@[simp] theorem State.accept_ready (n : BitVec 6) : (s.accept n).ready = true := rfl
@[simp] theorem State.accept_tRun (n : BitVec 6) : (s.accept n).tRun = s.tRun := rfl
@[simp] theorem State.accept_tCnt (n : BitVec 6) : (s.accept n).tCnt = s.tCnt := rfl
@[simp] theorem State.accept_tPend (n : BitVec 6) : (s.accept n).tPend = s.tPend := rfl
@[simp] theorem State.accept_sCnt (n : BitVec 6) : (s.accept n).sCnt = s.sCnt := rfl
@[simp] theorem State.accept_sPend (n : BitVec 6) : (s.accept n).sPend = s.sPend := rfl
@[simp] theorem State.accept_lineP1 (n : BitVec 6) : (s.accept n).lineP1 = s.lineP1 := rfl
@[simp] theorem State.accept_lineP0 (n : BitVec 6) : (s.accept n).lineP0 = s.lineP0 := rfl
@[simp] theorem State.accept_ePend (n : BitVec 6) : (s.accept n).ePend = s.ePend := rfl
@[simp] theorem State.accept_trace (n : BitVec 6) : (s.accept n).trace = s.trace := rfl

@[simp] theorem State.reject_status : s.reject.status = 0x00#8 := rfl
@[simp] theorem State.reject_buffer : s.reject.buffer = 0#64 := rfl
@[simp] theorem State.reject_sr : s.reject.sr = s.sr := rfl
@[simp] theorem State.reject_ready : s.reject.ready = s.ready := rfl
@[simp] theorem State.reject_tRun : s.reject.tRun = s.tRun := rfl
@[simp] theorem State.reject_tCnt : s.reject.tCnt = s.tCnt := rfl
@[simp] theorem State.reject_tPend : s.reject.tPend = s.tPend := rfl
@[simp] theorem State.reject_sCnt : s.reject.sCnt = s.sCnt := rfl
@[simp] theorem State.reject_sPend : s.reject.sPend = s.sPend := rfl
@[simp] theorem State.reject_lineP1 : s.reject.lineP1 = s.lineP1 := rfl
@[simp] theorem State.reject_lineP0 : s.reject.lineP0 = s.lineP0 := rfl
@[simp] theorem State.reject_ePend : s.reject.ePend = s.ePend := rfl
@[simp] theorem State.reject_trace : s.reject.trace = s.trace := rfl

@[simp] theorem State.sshift_status (sdi : Bool) : (s.sshift sdi).status = s.status := rfl
@[simp] theorem State.sshift_buffer (sdi : Bool) : (s.sshift sdi).buffer = s.buffer := rfl
@[simp] theorem State.sshift_sr (sdi : Bool) : (s.sshift sdi).sr = shiftIn s.sr sdi := rfl
@[simp] theorem State.sshift_ready (sdi : Bool) : (s.sshift sdi).ready = s.ready := rfl
@[simp] theorem State.sshift_tRun (sdi : Bool) : (s.sshift sdi).tRun = s.tRun := rfl
@[simp] theorem State.sshift_tCnt (sdi : Bool) : (s.sshift sdi).tCnt = s.tCnt := rfl
@[simp] theorem State.sshift_tPend (sdi : Bool) : (s.sshift sdi).tPend = s.tPend := rfl
@[simp] theorem State.sshift_sCnt (sdi : Bool) : (s.sshift sdi).sCnt = (countUp s.sCnt).1 := rfl
@[simp] theorem State.sshift_sPend (sdi : Bool) : (s.sshift sdi).sPend = (s.sPend || (countUp s.sCnt).2) := rfl
@[simp] theorem State.sshift_lineP1 (sdi : Bool) : (s.sshift sdi).lineP1 = s.lineP1 := rfl
@[simp] theorem State.sshift_lineP0 (sdi : Bool) : (s.sshift sdi).lineP0 = s.lineP0 := rfl
@[simp] theorem State.sshift_ePend (sdi : Bool) : (s.sshift sdi).ePend = s.ePend := rfl
@[simp] theorem State.sshift_trace (sdi : Bool) : (s.sshift sdi).trace = s.trace := rfl

@[simp] theorem State.sbyte_status : s.sbyte.status = 0x00#8 := rfl
@[simp] theorem State.sbyte_buffer : s.sbyte.buffer = s.buffer >>> 8 := rfl
@[simp] theorem State.sbyte_sr : s.sbyte.sr = rev8 (lowByte s.buffer) := rfl
@[simp] theorem State.sbyte_ready : s.sbyte.ready = false := rfl
@[simp] theorem State.sbyte_tRun : s.sbyte.tRun = s.tRun := rfl
@[simp] theorem State.sbyte_tCnt : s.sbyte.tCnt = s.tCnt := rfl
@[simp] theorem State.sbyte_tPend : s.sbyte.tPend = s.tPend := rfl
@[simp] theorem State.sbyte_sCnt : s.sbyte.sCnt = s.sCnt := rfl
@[simp] theorem State.sbyte_sPend : s.sbyte.sPend = false := rfl
@[simp] theorem State.sbyte_lineP1 : s.sbyte.lineP1 = s.lineP1 := rfl
@[simp] theorem State.sbyte_lineP0 : s.sbyte.lineP0 = s.lineP0 := rfl
@[simp] theorem State.sbyte_ePend : s.sbyte.ePend = s.ePend := rfl
@[simp] theorem State.sbyte_trace : s.sbyte.trace = s.trace := rfl

@[simp] theorem State.doReset_status : s.doReset.status = 0x00#8 := rfl
@[simp] theorem State.doReset_buffer : s.doReset.buffer = 0#64 := rfl
@[simp] theorem State.doReset_sr : s.doReset.sr = 0x00#8 := rfl
@[simp] theorem State.doReset_ready : s.doReset.ready = false := rfl
@[simp] theorem State.doReset_tRun : s.doReset.tRun = false := rfl
@[simp] theorem State.doReset_tCnt : s.doReset.tCnt = 0#Config.timerWidth := rfl
@[simp] theorem State.doReset_tPend : s.doReset.tPend = false := rfl
@[simp] theorem State.doReset_sCnt : s.doReset.sCnt = 0#3 := rfl
@[simp] theorem State.doReset_sPend : s.doReset.sPend = false := rfl
@[simp] theorem State.doReset_lineP1 : s.doReset.lineP1 = s.lineP1 := rfl
@[simp] theorem State.doReset_lineP0 : s.doReset.lineP0 = s.lineP0 := rfl
@[simp] theorem State.doReset_ePend : s.doReset.ePend = false := rfl
@[simp] theorem State.doReset_trace : s.doReset.trace = s.trace := rfl

end Sys2Proof.Machine
end

