-- ==== Sys2Proof/Laws/Ops.lean ====
section
/-! SUPPORT. What each shared operation can do, said once: handler entry, the prologue, the timer's tick, the validator. -/

namespace Sys2Proof.Machine

variable {i : Instr} {f : State → State} {s t : State}

/-- Handler entry answers a next state exactly where the operation is enabled, and it is the handler's (R74, R146). -/
theorem serve_next : serve i f s = .next t ↔ enabled i s = true ∧ f s = t := by
  unfold serve
  split <;> simp_all

/-- Handler entry where the operation is not enabled (R74). -/
theorem serve_refused (h : enabled i s = false) : serve i f s = .refused (.notEnabled i) := by
  simp [serve, h]

/-- The prologue with no frame waiting only clears `ePend` (R81). -/
theorem edgePrologue_noFrame (h : s.hasData = false) : s.edgePrologue = { s with ePend := false } := by
  have h' : ({ s with ePend := false } : State).hasData = false := h
  simp [State.edgePrologue, State.discardStale, h']

/-- The prologue with a frame waiting discards it (R81). -/
theorem edgePrologue_stale (h : s.hasData = true) :
    s.edgePrologue = { s with ePend := false, status := 0x00#8, buffer := 0#64, ready := false } := by
  have h' : ({ s with ePend := false } : State).hasData = true := h
  simp [State.edgePrologue, State.discardStale, h', State.zeroShared]

/-- A TICK of a stopped timer changes nothing (R101). -/
theorem tick_stopped (h : s.tRun = false) : s.tick = s := by
  simp [State.tick, h]

/-- A TICK of a running timer (R101). -/
theorem tick_running (h : s.tRun = true) :
    s.tick = { s with tCnt := s.tCnt + 1#_, tPend := s.tPend || decide (s.tCnt = BitVec.allOnes _) } := by
  simp [State.tick, h, countUp_count, countUp_wraps]

/-- TIMEOUT with a count of 26 or 34 (R102, R103). -/
theorem timeout_accepts (h : validLength s.count = true) :
    s.timeout = { s with tRun := false, tPend := false }.accept s.count := by
  have h' : validLength ({ s with tRun := false, tPend := false } : State).count = true := h
  simp only [State.timeout, h', if_true]
  rfl

/-- TIMEOUT with any other count (R102, R104). -/
theorem timeout_rejects (h : validLength s.count = false) :
    s.timeout = { s with tRun := false, tPend := false, status := 0x00#8, buffer := 0#64 } := by
  have h' : validLength ({ s with tRun := false, tPend := false } : State).count = false := h
  simp [State.timeout, h', State.reject, State.zeroShared]

end Sys2Proof.Machine
end

