-- ==== Sys2Proof/Laws/Exec.lean ====
section
/-! SUPPORT. Everything an operation can do, said once: the handler function of each constructor, the inversion of `exec`, and
that the trace takes no part in an operation. -/

namespace Sys2Proof.Machine

variable {i : Instr} {s t : State}

/-- The transition each operation makes where it is enabled. -/
def transition : Instr → State → State
  | .line p1 p0 => State.line p1 p0
  | .tick => State.tick
  | .sshift sdi => State.sshift sdi
  | .edgeIdle => State.edgeIdle
  | .edgeZero => State.edgeZero
  | .edgeOne => State.edgeOne
  | .edgeDisc => State.edgeDisc
  | .timeout => State.timeout
  | .sbyte => State.sbyte
  | .reset => State.doReset

/-- An operation is its transition, served where it is enabled. -/
theorem exec_eq_serve (i : Instr) (s : State) : exec i s = serve i (transition i) s := by
  cases i <;> rfl

/-- An operation answers a next state exactly where it is enabled, and the state is its transition's. -/
theorem exec_next : exec i s = .next t ↔ enabled i s = true ∧ transition i s = t := by
  rw [exec_eq_serve, serve_next]

/-- An operation where it is enabled. -/
theorem exec_of_enabled (h : enabled i s = true) : exec i s = .next (transition i s) := exec_next.2 ⟨h, rfl⟩

/-- EDGE_ZERO with no frame waiting. -/
theorem edgeZero_noFrame (h : s.hasData = false) :
    s.edgeZero = { s with
      ePend := false, tCnt := Config.timerOffset, tRun := true, status := bumpCount s.status } := by
  rw [State.edgeZero, edgePrologue_noFrame h]
  rfl

/-- EDGE_ONE with no frame waiting. -/
theorem edgeOne_noFrame (h : s.hasData = false) :
    s.edgeOne = { s with
      ePend := false, tCnt := Config.timerOffset, tRun := true, status := bumpCount s.status,
      buffer := setBit s.buffer s.count } := by
  rw [State.edgeOne, edgePrologue_noFrame h]
  rfl

/-- EDGE_ZERO with a frame waiting. -/
theorem edgeZero_stale (h : s.hasData = true) :
    s.edgeZero = { s with
      ePend := false, tCnt := Config.timerOffset, tRun := true, status := 0x01#8, buffer := 0#64, ready := false } := by
  rw [State.edgeZero, edgePrologue_stale h]
  simp [State.countBit, State.restartTimer, bumpCount_zero]

/-- EDGE_ONE with a frame waiting. -/
theorem edgeOne_stale (h : s.hasData = true) :
    s.edgeOne = { s with
      ePend := false, tCnt := Config.timerOffset, tRun := true, status := 0x01#8, buffer := 1#64, ready := false } := by
  rw [State.edgeOne, edgePrologue_stale h]
  simp [State.countBit, State.restartTimer, bumpCount_zero, State.count, setBit_zero]

/-- EDGE_DISC with no frame waiting. -/
theorem edgeDisc_noFrame (h : s.hasData = false) :
    s.edgeDisc = { s with ePend := false, tRun := false, status := 0x00#8, ready := false } := by
  rw [State.edgeDisc, edgePrologue_noFrame h]

/-- EDGE_DISC with a frame waiting. -/
theorem edgeDisc_stale (h : s.hasData = true) :
    s.edgeDisc = { s with ePend := false, tRun := false, status := 0x00#8, ready := false, buffer := 0#64 } := by
  rw [State.edgeDisc, edgePrologue_stale h]

/-- Whether an operation is enabled does not depend on the trace. -/
@[simp] theorem enabled_trace (i : Instr) (s : State) (l : List StepWord) :
    enabled i { s with trace := l } = enabled i s := by
  cases i <;> rfl

/-- No transition reads or writes the trace. -/
theorem transition_trace (i : Instr) (s : State) (l : List StepWord) :
    transition i { s with trace := l } = { transition i s with trace := l } := by
  have hasData_eq : ({ s with trace := l } : State).hasData = s.hasData := rfl
  have count_eq : ({ s with trace := l } : State).count = s.count := rfl
  cases i with
  | line | sshift | sbyte | reset => rfl
  | tick =>
    cases h : s.tRun
    · simp [transition, tick_stopped, h]
    · simp [transition, tick_running, h]
  | edgeIdle =>
    simp only [transition, State.edgeIdle]
    cases h : s.hasData
    · rw [edgePrologue_noFrame h, edgePrologue_noFrame (hasData_eq.trans h)]
    · rw [edgePrologue_stale h, edgePrologue_stale (hasData_eq.trans h)]
  | edgeZero =>
    simp only [transition]
    cases h : s.hasData
    · rw [edgeZero_noFrame h, edgeZero_noFrame (hasData_eq.trans h)]
    · rw [edgeZero_stale h, edgeZero_stale (hasData_eq.trans h)]
  | edgeOne =>
    simp only [transition]
    cases h : s.hasData
    · rw [edgeOne_noFrame h, edgeOne_noFrame (hasData_eq.trans h), count_eq]
    · rw [edgeOne_stale h, edgeOne_stale (hasData_eq.trans h)]
  | edgeDisc =>
    simp only [transition]
    cases h : s.hasData
    · rw [edgeDisc_noFrame h, edgeDisc_noFrame (hasData_eq.trans h)]
    · rw [edgeDisc_stale h, edgeDisc_stale (hasData_eq.trans h)]
  | timeout =>
    simp only [transition]
    cases h : validLength s.count
    · rw [timeout_rejects h, timeout_rejects (by rw [count_eq, h])]
    · rw [timeout_accepts h, timeout_accepts (by rw [count_eq, h]), count_eq]
      rfl

/-- An operation leaves the trace as it is. -/
theorem exec_keeps_trace (h : exec i s = .next t) : t.trace = s.trace := by
  obtain ⟨-, rfl⟩ := exec_next.1 h
  have h' := congrArg State.trace (transition_trace i s s.trace)
  exact h'

end Sys2Proof.Machine
end

