-- ==== Sys2Proof/Laws/PerInstr.lean ====
section
/-! SUPPORT. Statements about each operation as syntax, one lemma a constructor (LAWS.json). -/

namespace Sys2Proof.Laws.MatchesOneRow

/-- The operation's step word matches a row of R71's table, and only one (R71: "No word matches two rows"). -/
def Statement (i : Instr) : Prop :=
  stepWordOk (encode i) = true ∧ (patterns.filter fun p => p.hits (encode i)).length = 1

theorem line (p1 p0 : Bool) : Statement (.line p1 p0) := by
  cases p1 <;> cases p0 <;> exact ⟨by decide, by decide⟩

theorem tick : Statement .tick := ⟨by decide, by decide⟩

theorem sshift (sdi : Bool) : Statement (.sshift sdi) := by
  cases sdi <;> exact ⟨by decide, by decide⟩

theorem edgeIdle : Statement .edgeIdle := ⟨by decide, by decide⟩

theorem edgeZero : Statement .edgeZero := ⟨by decide, by decide⟩

theorem edgeOne : Statement .edgeOne := ⟨by decide, by decide⟩

theorem edgeDisc : Statement .edgeDisc := ⟨by decide, by decide⟩

theorem timeout : Statement .timeout := ⟨by decide, by decide⟩

theorem sbyte : Statement .sbyte := ⟨by decide, by decide⟩

theorem reset : Statement .reset := ⟨by decide, by decide⟩

end Sys2Proof.Laws.MatchesOneRow
end

