-- ==== Sys2Proof/Laws/Traces.lean ====
section
/-! SUPPORT. How words, traces and runs of the machine unfold. -/

namespace Sys2Proof.Machine

variable {s t : State} {ws vs : List StepWord}

/-- The word of an operation applied is the operation's meaning. -/
theorem stepWord_encode (i : Instr) (s : State) : stepWord (encode i) s = exec i s := by
  cases i with
  | line p1 p0 => cases p1 <;> cases p0 <;> rfl
  | sshift sdi => cases sdi <;> rfl
  | tick | edgeIdle | edgeZero | edgeOne | edgeDisc | timeout | sbyte | reset => rfl

/-- A word that has a step is an operation's, enabled there. -/
theorem stepWord_next {w : StepWord} :
    stepWord w s = .next t ↔ ∃ i, decode w = some i ∧ exec i s = .next t := by
  unfold stepWord
  cases decode w <;> simp

/-- A trace with a first word. -/
theorem runTrace_cons_next {w : StepWord} :
    runTrace (w :: ws) s = .next t ↔ ∃ u, stepWord w s = .next u ∧ runTrace ws u = .next t := by
  rw [runTrace]
  cases stepWord w s <;> simp

/-- Two traces one after the other, the first of which runs through. -/
theorem runTrace_append (h : runTrace ws s = .next t) : runTrace (ws ++ vs) s = runTrace vs t := by
  induction ws generalizing s with
  | nil =>
    simp only [runTrace, Host.Outcome.next.injEq] at h
    rw [List.nil_append, h]
  | cons w ws ih =>
    obtain ⟨u, hu, hrest⟩ := runTrace_cons_next.1 h
    rw [List.cons_append, runTrace, hu]
    exact ih hrest

/-- `n + 1` steps of the machine are one step and then `n`. -/
theorem core_run_succ (n : Nat) (s : State) :
    core.run (n + 1) s =
      match step s with
      | .next t => core.run n t
      | .fault r => .fault r
      | .refused r => .refused r := by
  rw [Host.Core.run.eq_def core (n + 1) s]
  have e : core.step s = step s := rfl
  cases hs : step s <;> (rw [hs] at e; simp only [e])

end Sys2Proof.Machine
end

