-- ==== Sys2Proof/Tests/Slice0.lean ====
section
/-! SUPPORT. The model's own tests: words written out from R71, single steps with the results that spec/95_test_vectors.md
gives (each test names its vector), ill-formed words and traces refused, and for each statement with hypotheses a state that
meets them all, clause by clause. -/

namespace Sys2Proof.Tests

open Sys2Proof.Machine

/-- The next state of an outcome, if it is one. -/
def nextOf (o : Host.Outcome State Fault Refusal) : Option State :=
  match o with
  | .next s => some s
  | .fault _ => none
  | .refused _ => none

/-- What a test compares: the registers that a vector gives a number for. -/
def view (s : State) : BitVec 8 × BitVec 64 × BitVec 8 × Bool := (s.status, s.buffer, s.sr, s.ready)

/-- The bits a test compares: `tRun`, `tPend`, `sPend`, `ePend`. -/
def bits (s : State) : Bool × Bool × Bool × Bool := (s.tRun, s.tPend, s.sPend, s.ePend)

/-- A state while a frame is captured: ten or fewer bits, the timer running, an edge pending at the given levels. -/
def capturing (status : BitVec 8) (buffer : BitVec 64) (p1 p0 : Bool) : State :=
  { State.reset with status := status, buffer := buffer, tRun := true, ePend := true, lineP1 := p1, lineP0 := p0 }

/-- The waiting frame of vector V18 (facility 1, card 4), an edge pending at the given levels. -/
def waiting (p1 p0 : Bool) : State :=
  { State.reset with
    status := 0x83#8, buffer := 0x200080#64, sr := 0x03#8, ready := true, ePend := true, lineP1 := p1, lineP0 := p0 }

/-- A state whose timer has overflowed with the given count and buffer. -/
def expired (status : BitVec 8) (buffer : BitVec 64) : State :=
  { State.reset with status := status, buffer := buffer, tRun := true, tPend := true }

/-- A state with a whole byte shifted out and the given buffer. -/
def shifted (status : BitVec 8) (buffer : BitVec 64) : State :=
  { State.reset with status := status, buffer := buffer, sPend := true }

/-! ## Decoding: R71's words, bit by bit -/

theorem test_decode_line : decode 0b00000001#8 = some (.line false true) := by decide
theorem test_decode_line_p1 : decode 0b00000010#8 = some (.line true false) := by decide
theorem test_decode_tick : decode 0b00010000#8 = some .tick := by decide
theorem test_decode_sshift : decode 0b00100001#8 = some (.sshift true) := by decide
theorem test_decode_edgeIdle : decode 0b01000000#8 = some .edgeIdle := by decide
theorem test_decode_edgeZero : decode 0b01000001#8 = some .edgeZero := by decide
theorem test_decode_edgeOne : decode 0b01000010#8 = some .edgeOne := by decide
theorem test_decode_edgeDisc : decode 0b01000011#8 = some .edgeDisc := by decide
theorem test_decode_timeout : decode 0b01010000#8 = some .timeout := by decide
theorem test_decode_sbyte : decode 0b01100000#8 = some .sbyte := by decide
theorem test_decode_reset : decode 0b11111111#8 = some .reset := by decide

/-! ## Ill-formed words and traces (V43a to V43e; R73, R74) -/

/-- V43e: reserved words match no row. -/
theorem test_reserved_words_ill_formed :
    [0x04#8, 0x11#8, 0x22#8, 0x44#8, 0x51#8, 0x61#8, 0x80#8, 0xFE#8].all (fun w => !stepWordOk w) = true := by decide

/-- V43e: and decode to nothing. -/
theorem test_reserved_words_undecoded :
    [0x04#8, 0x11#8, 0x22#8, 0x44#8, 0x51#8, 0x61#8, 0x80#8, 0xFE#8].all (fun w => decode w == none) = true := by decide

/-- V43a to V43d: a handler word where it is not enabled makes the trace ill-formed. -/
theorem test_traces_ill_formed :
    [[0x41#8], [0x01#8, 0x42#8], [0x50#8], [0x20#8, 0x60#8]].all (fun ws => !wellFormedTrace ws State.reset) = true := by
  decide

/-- A handler word where it is enabled does not. -/
theorem test_trace_well_formed : wellFormedTrace [0x01#8, 0x41#8, 0x00#8, 0x40#8] State.reset = true := by decide

/-- Every row of the table, placed after reset, is the operation the next step runs (log entry 5). -/
theorem test_placed_words_run :
    [0x00, 0x10, 0x20, 0x40, 0x41, 0x42, 0x43, 0x50, 0x60, 0xFF].all
      (fun w => (nextOf (step (State.reset.withFetchWord 8 w))).isSome && (decodeTableWord 8 w).isSome) = true := by
  decide

/-! ## One step of each operation -/

/-- V15c. -/
theorem test_line_both_at_once :
    (nextOf (exec (.line true true) State.reset)).map (fun t => (t.lineP1, t.lineP0, t.ePend)) =
      some (true, true, true) := by decide

/-- V15b. -/
theorem test_line_no_change :
    (nextOf (exec (.line false true) { State.reset with lineP0 := true })).map State.ePend = some false := by decide

/-- V17c and V17b's last TICK, on a counter of 8 bits. -/
theorem test_tick_counter_8_bits : countUp 255#8 = (0#8, true) ∧ countUp 254#8 = (255#8, false) := by decide

/-- V17d: a second overflow leaves `tPend` set; V17a: a stopped timer does not count. -/
theorem test_tick_stopped_and_pending :
    (nextOf (exec .tick { State.reset with tRun := true, tPend := true })).map State.tRun = some true ∧
    (nextOf (exec .tick { State.reset with tPend := true })).map bits = some (false, true, false, false) := by decide

/-- V9. -/
theorem test_edgeIdle_nothing :
    (nextOf (exec .edgeIdle (capturing 0x06#8 0x33#64 false false))).map (fun t => (view t, bits t)) =
      some ((0x06#8, 0x33#64, 0x00#8, false), true, false, false, false) := by decide

/-- V10. -/
theorem test_edgeIdle_discards_stale :
    (nextOf (exec .edgeIdle (waiting false false))).map view = some (0x00#8, 0#64, 0x03#8, false) := by decide

/-- V6. -/
theorem test_edgeZero_wraps_without_carry :
    (nextOf (exec .edgeZero (capturing 0x3F#8 0x7FFFFFFFFFFFFFFF#64 false true))).map view =
      some (0x00#8, 0x7FFFFFFFFFFFFFFF#64, 0x00#8, false) := by decide

/-- V8. -/
theorem test_edgeZero_stale :
    (nextOf (exec .edgeZero (waiting false true))).map (fun t => (view t, bits t)) =
      some ((0x01#8, 0#64, 0x03#8, false), true, false, false, false) := by decide

/-- V5. -/
theorem test_edgeOne_top_bit :
    (nextOf (exec .edgeOne (capturing 0x3F#8 0#64 true false))).map view =
      some (0x00#8, 0x8000000000000000#64, 0x00#8, false) := by decide

/-- V7. -/
theorem test_edgeOne_stale :
    (nextOf (exec .edgeOne (waiting true false))).map view = some (0x01#8, 0x1#64, 0x03#8, false) := by decide

/-- V12. -/
theorem test_edgeDisc_keeps_buffer :
    (nextOf (exec .edgeDisc (capturing 0x1A#8 0x400101#64 true true))).map (fun t => (view t, bits t)) =
      some ((0x00#8, 0x400101#64, 0x00#8, false), false, false, false, false) := by decide

/-- V13. -/
theorem test_edgeDisc_stale :
    (nextOf (exec .edgeDisc (waiting true true))).map view = some (0x00#8, 0#64, 0x03#8, false) := by decide

/-- V20. -/
theorem test_timeout_accepts_34 :
    (nextOf (exec .timeout (expired 0x22#8 0x23CD45891#64))).map (fun t => (view t, bits t)) =
      some ((0x84#8, 0x1E6A2C48#64, 0x04#8, true), false, false, false, false) := by decide

/-- V24, a frame of 27 bits. -/
theorem test_timeout_rejects_27 :
    (nextOf (exec .timeout (expired 0x1B#8 0x7FFFFFF#64))).map view = some (0x00#8, 0#64, 0x00#8, false) := by decide

/-- V33. -/
theorem test_sshift_mid_byte :
    (nextOf (exec (.sshift false) { State.reset with sr := 0xA5#8, sCnt := 5#3 })).map
      (fun t => (t.sr, t.sCnt, t.sPend)) = some (0x4A#8, 6#3, false) ∧
    hostSees (.sshift false) { State.reset with sr := 0xA5#8 } = [true] := by decide

/-- V33b, with `sdi` = 1 in place of 0. -/
theorem test_sshift_wraps :
    (nextOf (exec (.sshift true) { State.reset with sr := 0x80#8, sCnt := 7#3 })).map
      (fun t => (t.sr, t.sCnt, t.sPend)) = some (0x01#8, 0#3, true) := by decide

/-- V34. -/
theorem test_sbyte_first_byte :
    (nextOf (exec .sbyte { shifted 0x83#8 0x200080#64 with ready := true })).map (fun t => (view t, bits t)) =
      some ((0x00#8, 0x2000#64, 0x01#8, false), false, false, false, false) := by decide

/-- V39: in mid-capture. -/
theorem test_sbyte_mid_capture :
    (nextOf (exec .sbyte { shifted 0x0A#8 0x101#64 with tRun := true })).map (fun t => (view t, t.tRun)) =
      some ((0x00#8, 0x1#64, 0x80#8, false), true) := by decide

/-- V42. -/
theorem test_reset_keeps_lines :
    (nextOf (exec .reset { waiting true false with sCnt := 3#3 })).map
      (fun t => (view t, t.ePend, t.sCnt, t.lineP1, t.lineP0)) =
      some ((0x00#8, 0#64, 0x00#8, false), false, 0#3, true, false) := by decide

/-- V30's table. -/
theorem test_rev8_table :
    [0x00#8, 0x01#8, 0x02#8, 0x03#8, 0x04#8, 0x0F#8, 0x10#8, 0x12#8, 0x1E#8, 0x20#8, 0x2C#8, 0x34#8, 0x48#8, 0x56#8,
      0x6A#8, 0x78#8, 0x80#8, 0xA5#8, 0xC0#8, 0xF0#8, 0xFF#8].map rev8 =
    [0x00#8, 0x80#8, 0x40#8, 0xC0#8, 0x20#8, 0xF0#8, 0x08#8, 0x48#8, 0x78#8, 0x04#8, 0x34#8, 0x2C#8, 0x12#8, 0x6A#8,
      0x56#8, 0x1E#8, 0x01#8, 0xA5#8, 0x03#8, 0x0F#8, 0xFF#8] := by decide

/-! ## Witnesses: a state and operands that meet each statement's hypotheses together -/

theorem witness_DecodeEncodeAgree : (Instr.line true false).wellFormed = true ∧ decode 0x02#8 = some (.line true false) := by
  decide

theorem witness_StepRunsDecodedInstruction :
    ({ State.reset with trace := [0x10#8] } : State).trace = 0x10#8 :: [] ∧ decode 0x10#8 = some .tick ∧
      Instr.tick.wellFormed = true := by decide

theorem witness_ReservedWordRefusedAndSilenceKeepsState :
    (({ State.reset with trace := [0x04#8] } : State).trace = 0x04#8 :: [] ∧ decode 0x04#8 = none) ∧
      State.reset.trace = [] := by decide

theorem witness_RunFollowsTrace : ({ State.reset with trace := [0x00#8, 0x10#8] } : State).trace = [0x00#8] ++ [0x10#8] := by
  decide

theorem witness_StepExactlyWhereEnabled :
    enabled .timeout (expired 0x1A#8 0#64) = true ∧ enabled .timeout State.reset = false := by decide

/-- The three ways a step ends: the first with no word left and with an enabled one, the third at a handler's word. -/
theorem witness_StepEndsInNextOrNamedRefusal :
    (State.reset.trace = [] ∧ decode 0x10#8 = some .tick ∧ enabled .tick State.reset = true) ∧
    decode 0xFE#8 = none ∧
    (decode 0x50#8 = some .timeout ∧ handlerSource .timeout ≠ none ∧ enabled .timeout State.reset = false) := by decide

theorem witness_EnabledHandlersAreThePendingOnes :
    handlerSource .edgeOne ≠ none ∧ (capturing 0#8 0#64 true false).ePend = true ∧
      Instr.edgeOne ∈ (capturing 0#8 0#64 true false).pendingHandlers ∧ handlerSource .edgeOne = some .lineChange := by
  decide

theorem witness_LineSetsLevelsAndPendsChange :
    (false, false) = (State.reset.lineP1, State.reset.lineP0) ∧ (true, false) ≠ (State.reset.lineP1, State.reset.lineP0) := by
  decide

/-- The three cases of TICK, the last two at the two ends of the counter's range. -/
theorem witness_TickCountsWhileRunning :
    State.reset.tRun = false ∧
    (({ State.reset with tRun := true, tCnt := BitVec.allOnes _ } : State).tRun = true ∧
      ({ State.reset with tRun := true, tCnt := BitVec.allOnes _ } : State).tCnt.toNat = 2 ^ Config.timerWidth - 1) ∧
    (({ State.reset with tRun := true } : State).tRun = true ∧
      ({ State.reset with tRun := true } : State).tCnt.toNat ≠ 2 ^ Config.timerWidth - 1) := by
  refine ⟨rfl, ⟨rfl, by simp⟩, rfl, ?_⟩
  have h : 1 < 2 ^ Config.timerWidth := Nat.one_lt_two_pow (by simp [Config.timerWidth])
  simp only [State.reset, BitVec.toNat_ofNat, Nat.zero_mod]
  omega

theorem witness_EdgeIdleOnlyDiscardsStaleFrame :
    ((capturing 6#8 0#64 false false).ePend = true ∧ (capturing 6#8 0#64 false false).lineP1 = false ∧
      (capturing 6#8 0#64 false false).lineP0 = false ∧ (capturing 6#8 0#64 false false).hasData = false) ∧
    (waiting false false).ePend = true ∧ (waiting false false).lineP1 = false ∧ (waiting false false).lineP0 = false ∧
      (waiting false false).hasData = true := by decide

/-- The first clause at the last count before the wrap. -/
theorem witness_EdgeZeroCountsOneBit :
    ((capturing 63#8 0#64 false true).ePend = true ∧ (capturing 63#8 0#64 false true).lineP1 = false ∧
      (capturing 63#8 0#64 false true).lineP0 = true ∧ (capturing 63#8 0#64 false true).hasData = false) ∧
    (waiting false true).ePend = true ∧ (waiting false true).lineP1 = false ∧ (waiting false true).lineP0 = true ∧
      (waiting false true).hasData = true := by decide

theorem witness_EdgeOneSetsBitAtCount :
    ((capturing 63#8 0#64 true false).ePend = true ∧ (capturing 63#8 0#64 true false).lineP1 = true ∧
      (capturing 63#8 0#64 true false).lineP0 = false ∧ (capturing 63#8 0#64 true false).hasData = false) ∧
    (waiting true false).ePend = true ∧ (waiting true false).lineP1 = true ∧ (waiting true false).lineP0 = false ∧
      (waiting true false).hasData = true := by decide

theorem witness_EdgeDiscKeepsBuffer :
    ((capturing 26#8 1#64 true true).ePend = true ∧ (capturing 26#8 1#64 true true).lineP1 = true ∧
      (capturing 26#8 1#64 true true).lineP0 = true ∧ (capturing 26#8 1#64 true true).hasData = false) ∧
    (waiting true true).ePend = true ∧ (waiting true true).lineP1 = true ∧ (waiting true true).lineP0 = true ∧
      (waiting true true).hasData = true := by decide

/-- The counts on both sides of the two accepted ones. -/
theorem witness_TimeoutRejectsOtherLengths :
    [25#8, 27#8, 33#8, 35#8].all (fun st =>
      (expired st 0#64).tPend && (expired st 0#64).count != 26#6 && (expired st 0#64).count != 34#6) = true := by decide

theorem witness_TimeoutAcceptsTwoLengths :
    ((expired 26#8 0#64).tPend = true ∧ (expired 26#8 0#64).count.toNat = 26) ∧
    (expired 34#8 0#64).tPend = true ∧ (expired 34#8 0#64).count.toNat = 34 := by decide

/-- Clean images of both lengths, the trailing parity bit set. -/
theorem witness_PayloadExtraction :
    ((expired 26#8 0x2000001#64).tPend = true ∧ (expired 26#8 0x2000001#64).count.toNat = 26 ∧
      ∀ j : Nat, 26 ≤ j → (expired 26#8 0x2000001#64).buffer.getLsbD j = false) ∧
    (expired 34#8 0x200000001#64).tPend = true ∧ (expired 34#8 0x200000001#64).count.toNat = 34 ∧
      ∀ j : Nat, 34 ≤ j → (expired 34#8 0x200000001#64).buffer.getLsbD j = false := by
  refine ⟨⟨by decide, by decide, fun j hj => ?_⟩, by decide, by decide, fun j hj => ?_⟩
  · exact Nat.testBit_lt_two_pow
      (lt_of_lt_of_le (by decide : (0x2000001#64).toNat < 2 ^ 26) (Nat.pow_le_pow_right (by decide) hj))
  · exact Nat.testBit_lt_two_pow
      (lt_of_lt_of_le (by decide : (0x200000001#64).toNat < 2 ^ 34) (Nat.pow_le_pow_right (by decide) hj))

/-- The frame of V18 with its leading parity bit changed (V2). -/
theorem witness_ParityNotChecked :
    (expired 26#8 0x400101#64).tPend = true ∧ (expired 26#8 0x400101#64).count.toNat = 26 ∧
    ∀ j : Nat, j ≠ 0 → j ≠ 26 - 1 → (0x400100#64).getLsbD j = (expired 26#8 0x400101#64).buffer.getLsbD j := by
  refine ⟨by decide, by decide, fun j h _ => ?_⟩
  have e : (0x400101#64) = 0x400100#64 ||| 1#64 := by decide
  show (0x400100#64).getLsbD j = (0x400101#64).getLsbD j
  rw [e, BitVec.getLsbD_or, BitVec.getLsbD_one]
  simp [h]

theorem witness_SbyteLoadsNextByte : (shifted 0x83#8 0x200080#64).sPend = true := by decide

theorem witness_PayloadBytePassesThroughRev8 : (shifted 0x00#8 0x2000#64).sPend = true := by decide

/-- The waiting frame of V18 with no edge pending. -/
def readyState : State := { waiting false false with ePend := false }

theorem readyState_inv : readyState.Inv := ⟨by decide, by decide, by decide, by decide⟩

/-- A step that goes on from a state with a frame ready. -/
theorem witness_StepKeepsInvariant :
    ({ readyState with trace := [0x21#8] } : State).Inv ∧
      (nextOf (step { readyState with trace := [0x21#8] })).isSome = true :=
  ⟨⟨by decide, by decide, by decide, by decide⟩, by decide⟩

theorem witness_StepKeepsIdleCountZero :
    ({ State.reset with trace := [0x01#8] } : State).IdleCountZero ∧
      (nextOf (step { State.reset with trace := [0x01#8] })).isSome = true := ⟨fun _ => rfl, by decide⟩

theorem witness_InvariantAfterResetAndAnyTrace :
    (nextOf (runTrace (encode .reset :: [0x02#8, 0x42#8]) (waiting true true))).isSome = true := by decide

/-- Both clauses: a frame that stays ready, and one just accepted. -/
theorem witness_ReadyFrameKeepsCountByte :
    (readyState.hasData = true ∧ (nextOf (exec .tick readyState)).map State.hasData = some true ∧ readyState.Inv) ∧
    (expired 26#8 0#64).hasData = false ∧ (nextOf (exec .timeout (expired 26#8 0#64))).map State.hasData = some true :=
  ⟨⟨by decide, by decide, readyState_inv⟩, by decide, by decide⟩

theorem witness_NoTimeoutWhileReady : readyState.Inv ∧ readyState.hasData = true := ⟨readyState_inv, by decide⟩

theorem witness_ErrorFlagNeverSetNeverRead :
    ((nextOf (exec .edgeZero (capturing 63#8 0#64 false true))).isSome = true ∧
      (capturing 63#8 0#64 false true).errorFlag = false) ∧
    (nextOf (runTrace [encode .reset, 0x10#8] (waiting true true))).isSome = true ∧
    (capturing 0x05#8 0#64 false true).AgreeButErrorFlag (capturing 0x45#8 0#64 false true) ∧
    (nextOf (exec .edgeZero (capturing 0x05#8 0#64 false true))).isSome = true ∧
    exec .edgeOne (capturing 0x05#8 0#64 false true) = .refused (.notEnabled .edgeOne) :=
  ⟨by decide, by decide, ⟨rfl, by decide, by decide⟩, by decide, rfl⟩

/-- An operation of each kind that answers a next state; the statements over all operations take any of them. -/
theorem witness_HandshakeFlagWriters : (nextOf (exec .timeout (expired 26#8 0#64))).isSome = true := by decide

theorem witness_PendingFlagWriters : (nextOf (exec (.line true false) State.reset)).isSome = true := by decide

/-- Each premise of the clauses: a register that the operation changes, and an operation that is no LINE. -/
theorem witness_RegisterWriters :
    (nextOf (exec .sbyte (shifted 0x83#8 0x200080#64))).map
      (fun t => (t.status != 0x83#8, t.buffer != 0x200080#64, t.sr != 0x00#8)) = some (true, true, true) ∧
    (nextOf (exec (.sshift true) State.reset)).map (fun t => (t.sr != 0x00#8, t.sCnt != 0#3)) = some (true, true) ∧
    ∃ t, exec .tick { State.reset with tRun := true } = .next t ∧ t.tCnt ≠ 0#_ := by
  refine ⟨by decide, by decide, _, exec_of_enabled rfl, ?_⟩
  have h : 1 < 2 ^ Config.timerWidth := Nat.one_lt_two_pow (by simp [Config.timerWidth])
  rw [transition, tick_running rfl]
  intro e
  have := congrArg BitVec.toNat e
  simp only [State.reset, BitVec.toNat_add, BitVec.toNat_ofNat, Nat.zero_mod, Nat.zero_add,
    Nat.mod_eq_of_lt h] at this
  omega

/-- A capture at a count of 26 meets the invariants, and its TIMEOUT runs. -/
theorem witness_PhaseTransitions :
    (expired 26#8 0#64).Inv ∧ (expired 26#8 0#64).IdleCountZero ∧
      (nextOf (exec .timeout (expired 26#8 0#64))).isSome = true :=
  ⟨⟨by decide, by decide, by decide, by decide⟩, fun h => absurd h (by decide), by decide⟩

theorem witness_StaleFrameDiscarded :
    [(Instr.edgeIdle, waiting false false), (.edgeZero, waiting false true), (.edgeOne, waiting true false),
      (.edgeDisc, waiting true true)].all
      (fun p => handlerSource p.1 == some .lineChange && enabled p.1 p.2 && p.2.hasData) = true := by decide

theorem witness_QuiescentStateStays : State.reset.Quiescent ∧ handlerSource .sbyte ≠ none := ⟨⟨rfl, rfl⟩, by decide⟩

/-- The first clauses hold of every state; the third needs a count other than 26 and 34. -/
theorem witness_IdempotentOperations : State.reset.count ≠ 26#6 ∧ State.reset.count ≠ 34#6 := by decide

theorem witness_SerialFramingCountsEveryClock :
    (nextOf (runTrace [0x20#8, 0x10#8, 0x21#8] State.reset)).isSome = true ∧
      encode .reset ∉ [0x20#8, 0x10#8, 0x21#8] := by decide

/-- Reset with the given status byte is quiet as long as no frame waits. -/
theorem reset_quiet : State.reset.LinesQuiet := ⟨rfl, rfl, rfl, rfl⟩

theorem witness_PulseLostBeforeService : State.reset.LinesQuiet ∧ (true, false) ≠ (false, false) := ⟨reset_quiet, by decide⟩

theorem witness_TimerRaceLosesFrameInBothOrders :
    ({ capturing 26#8 0x400101#64 true false with tPend := true } : State).Inv ∧
    ({ capturing 26#8 0x400101#64 true false with tPend := true } : State).tPend = true ∧
    (capturing 26#8 0x400101#64 true false).ePend = true ∧ (capturing 26#8 0x400101#64 true false).lineP1 = true ∧
    (capturing 26#8 0x400101#64 true false).lineP0 = false ∧ (capturing 26#8 0x400101#64 true false).count = 26#6 :=
  ⟨⟨by decide, by decide, by decide, by decide⟩, by decide, by decide, by decide, by decide, by decide⟩

/-- With the overflow latched, as V14, and without it. -/
theorem witness_DisconnectDropsAttempt :
    (enabled .edgeDisc { capturing 3#8 7#64 true true with tPend := true } = true ∧
      ({ capturing 3#8 7#64 true true with tPend := true } : State).tPend = true) ∧
    enabled .edgeDisc (capturing 26#8 0#64 true true) = true := by decide

theorem witness_CleanPulseTakesOneBit : State.reset.LinesQuiet := reset_quiet

theorem witness_CaptureImageOfAnyFrame :
    State.reset.LinesQuiet ∧ State.reset.status = 0x00#8 ∧ [true, false, true] ≠ [] := ⟨reset_quiet, rfl, by decide⟩

theorem witness_TimeoutWindow :
    ({ State.reset with tRun := true, tCnt := Config.timerOffset } : State).tRun = true ∧
    ({ State.reset with tRun := true, tCnt := Config.timerOffset } : State).tPend = false ∧
    ({ State.reset with tRun := true, tCnt := Config.timerOffset } : State).tCnt = Config.timerOffset := ⟨rfl, rfl, rfl⟩

theorem witness_ExpireServesTimeout : (capturing 26#8 0#64 false false).tRun = true := by decide

theorem witness_HostByteReadsShiftRegister : readyState.sCnt = 0#3 := by decide

theorem witness_HostStream : readyState.sCnt = 0#3 := by decide

/-- Both lengths, at once. -/
theorem witness_FrameIsDeliveredInArrivalOrder :
    (State.reset.LinesQuiet ∧ State.reset.status = 0x00#8 ∧ State.reset.buffer = 0#64 ∧ State.reset.sCnt = 0#3) ∧
    ((List.replicate 26 true).length = 26 ∧
      (List.replicate 4 (Vector.replicate 8 false)).length = 3 + 1) ∧
    (List.replicate 34 true).length = 34 ∧ (List.replicate 5 (Vector.replicate 8 false)).length = 4 + 1 :=
  ⟨⟨reset_quiet, rfl, rfl, rfl⟩, ⟨by decide, by decide⟩, by decide, by decide⟩

theorem witness_OnlyTwoLengthsRaiseReady :
    State.reset.LinesQuiet ∧ State.reset.status = 0x00#8 ∧ State.reset.ready = false ∧ [true] ≠ [] :=
  ⟨reset_quiet, rfl, rfl, by decide⟩

end Sys2Proof.Tests
end

/-! PROOFS. Facts the encoding statements share: the length check on numbers, what TIMEOUT answers for an accepted frame, the
bits of a reversed byte. -/

namespace Sys2Proof.Machine

/-- The whitelist of frame lengths, on the value of the count (R6, R102). -/
theorem validLength_iff_toNat (n : BitVec 6) : validLength n = true ↔ n.toNat = 26 ∨ n.toNat = 34 := by
  rw [validLength_iff, ← BitVec.toNat_inj, ← BitVec.toNat_inj]
  rfl

/-- TIMEOUT, pending, with an accepted count answers the accepted frame (R102, R103). -/
theorem exec_timeout_accepts {s : State} (pending : s.tPend = true) (valid : validLength s.count = true) :
    exec .timeout s = .next ({ s with tRun := false, tPend := false }.accept s.count) := by
  have h : exec .timeout s = .next s.timeout := exec_of_enabled pending
  rw [h, timeout_accepts valid]

/-- SBYTE, pending, answers its handler's state (R123). -/
theorem exec_sbyte_of_pending {s : State} (pending : s.sPend = true) : exec .sbyte s = .next s.sbyte :=
  exec_of_enabled pending

/-- Byte 0 of the buffer is its low byte (R41). -/
theorem bufferByte_zero (b : BitVec 64) : bufferByte b 0 = lowByte b := rfl

/-- Bit `7 − k` of a reversed byte is bit `k` of the byte (R121). -/
theorem getLsbD_rev8_sub (b : BitVec 8) {k : Nat} (hk : k < 8) : (rev8 b).getLsbD (7 - k) = b.getLsbD k :=
  getLsbD_rev8 b ⟨k, hk⟩

/-- `rev8` is an involution: each bit is moved from `k` to `7 − k` and back (R121). -/
theorem rev8_rev8 (b : BitVec 8) : rev8 (rev8 b) = b := by
  refine BitVec.eq_of_getLsbD_eq fun k hk => ?_
  have mirror : k = 7 - (7 - k) := by omega
  calc (rev8 (rev8 b)).getLsbD k
      = (rev8 (rev8 b)).getLsbD (7 - (7 - k)) := by rw [← mirror]
    _ = (rev8 b).getLsbD (7 - k) := getLsbD_rev8_sub (rev8 b) (by omega)
    _ = b.getLsbD k := getLsbD_rev8_sub b hk

end Sys2Proof.Machine

/-! PROOFS. `errorFlag` along operations and traces: an invariant of runs, packaged once; no transition sets the flag; and
the transitions respect agreement up to the flag, so no transition reads it (R66). -/

namespace Sys2Proof.Machine

variable {s s' t : State} {ws : List StepWord}

/-- What every operation keeps, every trace keeps. -/
theorem runTrace_keeps {P : State → Prop} (keeps : ∀ i s t, exec i s = .next t → P s → P t)
    (h : runTrace ws s = .next t) (hs : P s) : P t := by
  induction ws generalizing s with
  | nil =>
    simp only [runTrace, Host.Outcome.next.injEq] at h
    exact h ▸ hs
  | cons w ws ih =>
    obtain ⟨u, hstep, hrest⟩ := runTrace_cons_next.1 h
    obtain ⟨i, -, hexec⟩ := stepWord_next.1 hstep
    exact ih hrest (keeps i s u hexec hs)

/-- A trace that begins with RESET runs on from the reset state, whatever came before (R165). -/
theorem runTrace_reset_cons (ws : List StepWord) (s : State) :
    runTrace (encode .reset :: ws) s = runTrace ws s.doReset := by
  have h : stepWord (encode .reset) s = .next s.doReset := stepWord_encode .reset s
  rw [runTrace, h]

/-- The prologue leaves the status byte or zeroes it, so it leaves `errorFlag` 0 (R81). -/
theorem edgePrologue_errorFlag_zero (h : statusErrorFlag s.status = false) :
    statusErrorFlag s.edgePrologue.status = false := by
  cases hd : s.hasData
  · simpa only [edgePrologue_noFrame hd] using h
  · simp [edgePrologue_stale hd]

/-- Where `errorFlag` is 0 every transition leaves it 0 (R66). -/
theorem transition_errorFlag_zero (i : Instr) (h : statusErrorFlag s.status = false) :
    statusErrorFlag (transition i s).status = false := by
  cases i with
  | line | sshift => exact h
  | sbyte | reset | edgeDisc => exact statusErrorFlag_zero
  | edgeIdle => exact edgePrologue_errorFlag_zero h
  | edgeZero | edgeOne => exact (statusErrorFlag_bumpCount _).trans (edgePrologue_errorFlag_zero h)
  | tick =>
    simp only [transition]
    cases hrun : s.tRun
    · simpa only [tick_stopped hrun] using h
    · simpa only [tick_running hrun] using h
  | timeout =>
    simp only [transition]
    cases hv : validLength s.count
    · simp [timeout_rejects hv]
    · simp [timeout_accepts hv, h]

/-- No operation sets `errorFlag` (R66). -/
theorem exec_keeps_errorFlag_zero (i : Instr) (s t : State) (h : exec i s = .next t) (hs : s.errorFlag = false) :
    t.errorFlag = false := by
  obtain ⟨-, rfl⟩ := exec_next.1 h
  exact transition_errorFlag_zero i hs

theorem State.AgreeButErrorFlag.refl (s : State) : s.AgreeButErrorFlag s := ⟨rfl, rfl, rfl⟩

/-- Agreement up to `errorFlag`, with the second state written out as the first under another status byte. -/
theorem State.AgreeButErrorFlag.exists_status (h : s.AgreeButErrorFlag s') :
    ∃ st, statusHasData s.status = statusHasData st ∧ statusCount s.status = statusCount st ∧
      s' = { s with status := st } :=
  ⟨s'.status, h.hasData, h.count, h.registers.symm⟩

/-- Whether an operation is enabled does not depend on the status byte (R70). -/
theorem enabled_status (i : Instr) (s : State) (st : BitVec 8) : enabled i { s with status := st } = enabled i s := by
  cases i <;> rfl

theorem State.AgreeButErrorFlag.enabled_eq (h : s.AgreeButErrorFlag s') (i : Instr) : enabled i s' = enabled i s := by
  rw [← h.registers, enabled_status]

/-- Counting a bit reads nothing of the status byte but `hasData` and `count` (R82). -/
theorem State.AgreeButErrorFlag.countBit (h : s.AgreeButErrorFlag s') : s.countBit.AgreeButErrorFlag s'.countBit := by
  obtain ⟨st, hd, hc, rfl⟩ := h.exists_status
  refine ⟨rfl, ?_, ?_⟩
  · simpa [State.hasData] using hd
  · simp [State.count, hc]

/-- The prologue tests `hasData` only (R81). -/
theorem State.AgreeButErrorFlag.edgePrologue (h : s.AgreeButErrorFlag s') :
    s.edgePrologue.AgreeButErrorFlag s'.edgePrologue := by
  have hd' := h.hasData
  obtain ⟨st, hd, hc, rfl⟩ := h.exists_status
  cases hs : s.hasData
  · rw [edgePrologue_noFrame hs, edgePrologue_noFrame (hd' ▸ hs)]
    exact ⟨rfl, hd, hc⟩
  · rw [edgePrologue_stale hs, edgePrologue_stale (hd' ▸ hs)]
    exact .refl _

/-- Setting the bit of `buffer` at the count reads the count only (R83). -/
theorem State.AgreeButErrorFlag.setBit (h : s.AgreeButErrorFlag s') :
    ({ s with buffer := setBit s.buffer s.count } : State).AgreeButErrorFlag
      { s' with buffer := setBit s'.buffer s'.count } := by
  rw [← h.count]
  obtain ⟨st, hd, hc, rfl⟩ := h.exists_status
  exact ⟨rfl, hd, hc⟩

/-- EDGE_DISC writes the whole status byte after the prologue (R84). -/
theorem State.AgreeButErrorFlag.edgeDisc (h : s.AgreeButErrorFlag s') : s.edgeDisc.AgreeButErrorFlag s'.edgeDisc := by
  have hp := h.edgePrologue.registers
  have same : s.edgeDisc = s'.edgeDisc := by
    rw [State.edgeDisc, State.edgeDisc, ← hp]
  exact same ▸ .refl _

/-- A TICK reads the timer only (R101). -/
theorem State.AgreeButErrorFlag.tick (h : s.AgreeButErrorFlag s') : s.tick.AgreeButErrorFlag s'.tick := by
  have hrun' : s'.tRun = s.tRun := by rw [← h.registers]
  cases hrun : s.tRun
  · rw [tick_stopped hrun, tick_stopped (hrun'.trans hrun)]
    exact h
  · rw [tick_running hrun, tick_running (hrun'.trans hrun)]
    obtain ⟨st, hd, hc, rfl⟩ := h.exists_status
    exact ⟨rfl, hd, hc⟩

/-- TIMEOUT tests and keeps the count only; the flag it carries over at acceptance is the one difference left (R102, R103). -/
theorem State.AgreeButErrorFlag.timeout (h : s.AgreeButErrorFlag s') : s.timeout.AgreeButErrorFlag s'.timeout := by
  have hcount := h.count
  obtain ⟨st, hd, hc, rfl⟩ := h.exists_status
  cases hv : validLength s.count
  · rw [timeout_rejects hv, timeout_rejects (hcount ▸ hv)]
    exact .refl _
  · rw [timeout_accepts hv, timeout_accepts (hcount ▸ hv), ← hcount]
    refine ⟨rfl, ?_, ?_⟩ <;> simp [State.hasData, State.count]

/-- Every transition takes states that agree up to `errorFlag` to states that do (R66: "never read"). -/
theorem State.AgreeButErrorFlag.transition (h : s.AgreeButErrorFlag s') (i : Instr) :
    (transition i s).AgreeButErrorFlag (transition i s') := by
  cases i with
  | tick => exact h.tick
  | edgeIdle => exact h.edgePrologue
  | edgeZero => exact h.edgePrologue.countBit
  | edgeOne => exact h.edgePrologue.setBit.countBit
  | edgeDisc => exact h.edgeDisc
  | timeout => exact h.timeout
  | line p1 p0 =>
    obtain ⟨st, hd, hc, rfl⟩ := h.exists_status
    exact ⟨rfl, hd, hc⟩
  | sshift sdi =>
    obtain ⟨st, hd, hc, rfl⟩ := h.exists_status
    exact ⟨rfl, hd, hc⟩
  | sbyte | reset =>
    obtain ⟨st, -, -, rfl⟩ := h.exists_status
    exact .refl _

/-- States that agree up to `errorFlag` are refused alike. -/
theorem State.AgreeButErrorFlag.exec_refused (h : s.AgreeButErrorFlag s') {i : Instr} {r : Refusal}
    (hr : exec i s = .refused r) : exec i s' = .refused r := by
  cases he : enabled i s
  · rw [exec_eq_serve, serve_refused he] at hr
    rw [exec_eq_serve, serve_refused ((h.enabled_eq i).trans he), hr]
  · rw [exec_of_enabled he] at hr
    cases hr

/-- States that agree up to `errorFlag` go to next states that do. -/
theorem State.AgreeButErrorFlag.exec_next (h : s.AgreeButErrorFlag s') {i : Instr} (ht : exec i s = .next t) :
    ∃ t', exec i s' = .next t' ∧ t.AgreeButErrorFlag t' := by
  obtain ⟨he, rfl⟩ := Machine.exec_next.1 ht
  exact ⟨_, exec_of_enabled ((h.enabled_eq i).trans he), h.transition i⟩

end Sys2Proof.Machine

/-! PROOFS. The statements of spec/30_encoding.md: O21, O35, O26. -/

namespace Sys2Proof.Machine

/-- Settles O21: the accepted buffer is `payload`, read bit by bit (R60). -/
theorem payloadExtraction : Obligations.PayloadExtraction := by
  intro s n pending hn hlen
  have valid : validLength s.count = true := (validLength_iff_toNat _).2 (hn.symm ▸ hlen)
  refine ⟨_, exec_timeout_accepts pending valid, ?_⟩
  have bit (j : Nat) : (payload s.buffer s.count).getLsbD j = (s.buffer.getLsbD (j + 1) && decide (j ≠ n - 2)) := by
    rw [getLsbD_payload, hn]
  simp only [State.accept_buffer, bit]
  refine ⟨by simp, fun j hj => by simp [hj], fun clean j hj => ?_⟩
  by_cases trailing : j = n - 2
  · simp [trailing]
  · have above : n ≤ j + 1 := by omega
    simp [clean (j + 1) above]

/-- Settles O35: no transition sets the flag, every run after RESET starts with it 0, and every transition respects
agreement up to it (R66). -/
theorem errorFlagNeverSetNeverRead : Obligations.ErrorFlagNeverSetNeverRead := by
  refine ⟨exec_keeps_errorFlag_zero, fun s t ws h => ?_,
    fun i s s' agree => ⟨fun t => agree.exec_next, fun r => agree.exec_refused⟩⟩
  rw [runTrace_reset_cons] at h
  exact runTrace_keeps exec_keeps_errorFlag_zero h statusErrorFlag_zero

/-- Settles O26: SBYTE loads the reversed low byte, and the reversal is an involution (R63). -/
theorem payloadBytePassesThroughRev8 : Obligations.PayloadBytePassesThroughRev8 := by
  refine ⟨fun s pending => ⟨s.sbyte, exec_sbyte_of_pending pending, ?_, fun k hk => ?_⟩, rev8_rev8⟩
  · rw [State.sbyte_sr, bufferByte_zero]
  · rw [State.sbyte_sr, bufferByte_zero, getLsbD_rev8_sub _ hk]

end Sys2Proof.Machine

/-! PROOFS. The statements of spec/41_timeout_validator.md: O22, O19. -/

namespace Sys2Proof.Machine

/-- The payload of a frame does not depend on its two parity positions: bit 0 is shifted out, bit `n − 1` is cleared (R60). -/
theorem payload_eq_of_agree {b c : BitVec 64} {n : BitVec 6} (hn : 2 ≤ n.toNat)
    (agree : ∀ j : Nat, j ≠ 0 → j ≠ n.toNat - 1 → b.getLsbD j = c.getLsbD j) : payload b n = payload c n := by
  refine BitVec.eq_of_getLsbD_eq fun j _ => ?_
  rw [getLsbD_payload, getLsbD_payload]
  by_cases trailing : j = n.toNat - 2
  · simp [trailing]
  · rw [agree (j + 1) (by omega) (by omega)]

/-- Acceptance reads the buffer through its payload only (R103). -/
theorem accept_eq_of_payload_eq {s : State} {b : BitVec 64} {n : BitVec 6} (h : payload b n = payload s.buffer n) :
    { s with buffer := b }.accept n = s.accept n := by
  simp only [State.accept, h]

/-- TIMEOUT, pending, with any other count zeroes SharedState and the timer's two bits (R102, R104). -/
theorem exec_timeout_rejects {s : State} (pending : s.tPend = true) (invalid : validLength s.count = false) :
    exec .timeout s = .next { s with tRun := false, tPend := false, status := 0x00#8, buffer := 0#64 } := by
  have h : exec .timeout s = .next s.timeout := exec_of_enabled pending
  rw [h, timeout_rejects invalid]

/-- Settles O22: both frames are accepted, and acceptance reads the buffer through a payload that their parity positions
take no part in (R108). -/
theorem parityNotChecked : Obligations.ParityNotChecked := by
  rintro s b n pending rfl hlen agree
  have valid : validLength s.count = true := (validLength_iff_toNat _).2 hlen
  have samePayload : payload b s.count = payload s.buffer s.count := payload_eq_of_agree (by omega) agree
  refine ⟨_, exec_timeout_accepts pending valid, ?_, statusHasData_readyStatus _ _, State.accept_ready _ _⟩
  have accepted : exec .timeout { s with buffer := b } =
      .next ({ s with buffer := b, tRun := false, tPend := false }.accept s.count) :=
    exec_timeout_accepts (s := { s with buffer := b }) pending valid
  rw [accepted]
  exact congrArg _ (accept_eq_of_payload_eq (s := { s with tRun := false, tPend := false }) samePayload)

/-- Settles O19: a count that is neither length is not valid, and TIMEOUT rejects it (R104). -/
theorem timeoutRejectsOtherLengths : Obligations.TimeoutRejectsOtherLengths := by
  intro s pending not26 not34
  have invalid : validLength s.count = false := by
    rw [← Bool.not_eq_true, validLength_iff]
    exact not_or.2 ⟨not26, not34⟩
  exact exec_timeout_rejects pending invalid

end Sys2Proof.Machine

/-! PROOFS. The encoding: the word of an operation and the operation of a word (R71, R73, D20). -/

namespace Sys2Proof.Machine

/-- The word of an operation decodes to it (R71). -/
theorem decode_encode (i : Instr) : decode (encode i) = some i := by
  cases i with
  | line p1 p0 => cases p1 <;> cases p0 <;> rfl
  | sshift sdi => cases sdi <;> rfl
  | tick | edgeIdle | edgeZero | edgeOne | edgeDisc | timeout | sbyte | reset => rfl

/-- A word that decodes is its operation's word (R71), read off the 256 words. -/
theorem encode_of_decode {w : StepWord} {i : Instr} (h : decode w = some i) : encode i = w := by
  have inverse : ∀ w : StepWord, ∀ i ∈ decode w, encode i = w := by decide
  exact inverse w i h

/-- The single byte of a table word is the step word (format STEP8, R71). -/
theorem wordBytes_stepWord (w : StepWord) : wordBytes (8 / 8) w.toNat = [w] := by
  simp [wordBytes]

theorem decodeBytes_encode (i : Instr) (rest : List StepWord) : decodeBytes (encode i :: rest) = some (i, rest) := by
  rw [decodeBytes, decode_encode, Option.map_some]

theorem decodeTableWord_encode (i : Instr) : decodeTableWord 8 (encode i).toNat = some i := by
  rw [decodeTableWord, wordBytes_stepWord, decodeBytes_encode]

/-- Settles O1: decoding inverts encoding on bytes and on table words, and no word but an operation's own decodes to it. -/
theorem decodeEncodeAgree : Obligations.DecodeEncodeAgree :=
  ⟨fun i rest _ => ⟨decode_encode i, decodeBytes_encode i rest, decodeTableWord_encode i⟩, fun _ _ => encode_of_decode⟩

/-- Settles O2, over the 256 words. -/
theorem reservedWordsAreThoseListed : Obligations.ReservedWordsAreThoseListed := by
  unfold Obligations.ReservedWordsAreThoseListed
  decide

/-- Settles O3, over the 256 words. -/
theorem rowsDoNotOverlap : Obligations.RowsDoNotOverlap := by
  unfold Obligations.RowsDoNotOverlap
  decide

/-- Settles O4: each of the eleven words is the word of its operation. -/
theorem tableWordsDecode : Obligations.TableWordsDecode :=
  ⟨decode_encode (.line false true), decode_encode (.line true false), decode_encode .tick, decode_encode (.sshift true),
    decode_encode .edgeIdle, decode_encode .edgeZero, decode_encode .edgeOne, decode_encode .edgeDisc,
    decode_encode .timeout, decode_encode .sbyte, decode_encode .reset⟩

end Sys2Proof.Machine

/-! PROOFS. One step and a run: what the trace's first word makes of a step, where an operation is enabled, and what every
operation keeps (R70, R74). -/

namespace Sys2Proof.Machine

variable {i : Instr} {s t : State} {w : StepWord} {ws rest : List StepWord}

theorem step_nil (h : s.trace = []) : step s = .next s := by
  simp [step, State.fetch, h]

theorem step_cons (h : s.trace = w :: rest) : step s = stepWord w { s with trace := rest } := by
  simp [step, State.fetch, h]

theorem stepWord_of_decode (h : decode w = some i) : stepWord w s = exec i s := by
  simp [stepWord, h]

theorem stepWord_reserved (h : decode w = none) : stepWord w s = .refused (.reservedWord w) := by
  simp [stepWord, h]

/-- An operation where it is not enabled is refused by name (R74). -/
theorem exec_refused_of_disabled (h : enabled i s = false) : exec i s = .refused (.notEnabled i) := by
  rw [exec_eq_serve, serve_refused h]

/-- An operation that no event starts is enabled everywhere (R70). -/
theorem enabled_of_handlerSource_none (h : handlerSource i = none) (s : State) : enabled i s = true := by
  cases i with
  | line | tick | sshift | reset => rfl
  | edgeIdle | edgeZero | edgeOne | edgeDisc | timeout | sbyte => cases h

/-- The first word of a trace, where its operation is enabled. -/
theorem runTrace_encode_cons (h : exec i s = .next t) : runTrace (encode i :: ws) s = runTrace ws t := by
  rw [runTrace, stepWord_encode, h]

/-- A trace of one operation is the operation. -/
theorem runTrace_singleton (i : Instr) (s : State) : runTrace [encode i] s = exec i s := by
  rw [runTrace, stepWord_encode]
  cases exec i s <;> rfl

/-- What every operation keeps and the trace takes no part in, every step keeps. -/
theorem step_keeps {P : State → Prop} (keeps : ∀ i s t, exec i s = .next t → P s → P t)
    (ignores_trace : ∀ s l, P s → P { s with trace := l }) (h : step s = .next t) (hs : P s) : P t := by
  cases htrace : s.trace with
  | nil =>
    rw [step_nil htrace] at h
    cases h
    exact hs
  | cons w rest =>
    rw [step_cons htrace] at h
    obtain ⟨i, -, hexec⟩ := stepWord_next.1 h
    exact keeps i _ t hexec (ignores_trace s rest hs)

/-- Settles O5: the word is fetched and decoded to the operation. -/
theorem stepRunsDecodedInstruction : Obligations.StepRunsDecodedInstruction := by
  intro s w rest i htrace hdecode _
  rw [step_cons htrace, stepWord_of_decode hdecode]

/-- Settles O6: the word is fetched and decodes to nothing, or there is none to fetch. -/
theorem reservedWordRefusedAndSilenceKeepsState : Obligations.ReservedWordRefusedAndSilenceKeepsState :=
  ⟨fun s w rest htrace hdecode => by rw [step_cons htrace, stepWord_reserved hdecode], fun _ => step_nil⟩

/-- An operation is enabled where its event is armed (log entry 5). -/
theorem enabled_arm (i : Instr) (s : State) : enabled i (s.arm i) = true := by
  cases i <;> rfl

/-- Arming an event does not touch the trace. -/
theorem arm_trace (i : Instr) (s : State) (l : List StepWord) :
    ({ s with trace := l } : State).arm i = { s.arm i with trace := l } := by
  cases i <;> rfl

theorem trace_arm (i : Instr) (s : State) : (s.arm i).trace = s.trace := by
  cases i <;> rfl

/-- A placed word is put before the trace, with its event armed (log entry 5). -/
theorem withFetchWord_encode (i : Instr) (s : State) :
    s.withFetchWord 8 (encode i).toNat = { s.arm i with trace := encode i :: s.trace } := by
  rw [State.withFetchWord, wordBytes_stepWord, State.place, decodeBytes_encode]
  exact arm_trace i s _

/-- Settles O7: the placed word is the one fetched, and past it stands the armed state. -/
theorem placedWordRunsNext : Obligations.PlacedWordRunsNext := by
  refine fun s i => ⟨?_, enabled_arm i s⟩
  have past_word : ({ s.arm i with trace := s.trace } : State) = s.arm i := by rw [← trace_arm i s]
  rw [withFetchWord_encode, step_cons rfl, stepWord_encode, past_word]

/-- A word refused under one trace is refused under every trace; a word with a step has the same step, which carries the
trace along. -/
theorem stepWord_trace (w : StepWord) (s : State) (l l' : List StepWord) :
    (∃ t : State, stepWord w { s with trace := l } = .next { t with trace := l } ∧
      stepWord w { s with trace := l' } = .next { t with trace := l' }) ∨
    ∃ r, stepWord w { s with trace := l } = .refused r ∧ stepWord w { s with trace := l' } = .refused r := by
  cases hdecode : decode w with
  | none => exact .inr ⟨_, stepWord_reserved hdecode, stepWord_reserved hdecode⟩
  | some i =>
    simp only [stepWord_of_decode hdecode]
    cases he : enabled i s
    · exact .inr ⟨_, exec_refused_of_disabled ((enabled_trace i s l).trans he),
        exec_refused_of_disabled ((enabled_trace i s l').trans he)⟩
    · refine .inl ⟨transition i s, ?_, ?_⟩ <;>
        rw [exec_of_enabled (by rw [enabled_trace, he]), transition_trace]

/-- Settles O8, by induction on the words: the step fetches the first word, which acts alike before the words left and
before the rest. -/
theorem runFollowsTrace : Obligations.RunFollowsTrace := by
  intro ws
  induction ws with
  | nil =>
    rintro rest s rfl
    rfl
  | cons w ws ih =>
    intro rest s htrace
    rw [List.length_cons, core_run_succ, step_cons htrace, runTrace]
    obtain ⟨t, hrun, happly⟩ | ⟨r, hrun, happly⟩ := stepWord_trace w s (ws ++ rest) rest
    · simp only [List.append_eq, hrun, happly]
      exact ih rest _ rfl
    · simp only [List.append_eq, hrun, happly]
      rfl

/-- Settles O9, by induction on the words: the first word has a step exactly where it decodes to an operation enabled. -/
theorem wellFormedTraceIsOneThatRuns : Obligations.WellFormedTraceIsOneThatRuns := by
  intro ws
  induction ws with
  | nil => exact fun s => ⟨fun _ => ⟨s, rfl⟩, fun _ => rfl⟩
  | cons w ws ih =>
    intro s
    rw [wellFormedTrace, runTrace]
    cases hdecode : decode w with
    | none => simp [stepWord_reserved hdecode]
    | some i =>
      rw [stepWord_of_decode hdecode]
      cases he : enabled i s
      · simp [exec_refused_of_disabled he]
      · simp [exec_of_enabled he, he, ih]

/-- Settles O10: an operation is served exactly where it is enabled. -/
theorem stepExactlyWhereEnabled : Obligations.StepExactlyWhereEnabled := by
  refine fun i s => ⟨⟨?_, fun he => ⟨_, exec_of_enabled he⟩⟩, exec_refused_of_disabled⟩
  rintro ⟨t, h⟩
  exact (exec_next.1 h).1

/-- A handler of a line change is enabled exactly where one is pending and the levels select it (R67, R70, R86). -/
theorem enabled_lineChange (h : handlerSource i = some .lineChange) (s : State) :
    enabled i s = true ↔ s.ePend = true ∧ i = selectEdge s.lineP1 s.lineP0 := by
  cases i with
  | edgeIdle | edgeZero | edgeOne | edgeDisc =>
    cases h1 : s.lineP1 <;> cases h0 : s.lineP0 <;> simp [enabled, h1, h0, selectEdge, lineClass]
  | line | tick | sshift | timeout | sbyte | reset => cases h

theorem selectEdge_ne_timeout (p1 p0 : Bool) : selectEdge p1 p0 ≠ .timeout := by
  cases p1 <;> cases p0 <;> decide

theorem selectEdge_ne_sbyte (p1 p0 : Bool) : selectEdge p1 p0 ≠ .sbyte := by
  cases p1 <;> cases p0 <;> decide

/-- The pending handlers, one a pending bit (R143). -/
theorem mem_pendingHandlers : i ∈ s.pendingHandlers ↔
    (s.ePend = true ∧ i = selectEdge s.lineP1 s.lineP0) ∨ (s.tPend = true ∧ i = .timeout) ∨
      (s.sPend = true ∧ i = .sbyte) := by
  cases he : s.ePend <;> cases ht : s.tPend <;> cases hs : s.sPend <;> simp [State.pendingHandlers, he, ht, hs]

theorem nodup_pendingHandlers (s : State) : s.pendingHandlers.Nodup := by
  have hne := selectEdge_ne_timeout s.lineP1 s.lineP0
  have hne' := selectEdge_ne_sbyte s.lineP1 s.lineP0
  cases he : s.ePend <;> cases ht : s.tPend <;> cases hs : s.sPend <;>
    simp [State.pendingHandlers, he, ht, hs, hne, hne']

/-- A handler is enabled exactly where it is one of the pending ones (R70, R143). -/
theorem enabled_iff_mem_pendingHandlers (h : handlerSource i ≠ none) (s : State) :
    enabled i s = true ↔ i ∈ s.pendingHandlers := by
  rw [mem_pendingHandlers]
  cases i with
  | edgeIdle | edgeZero | edgeOne | edgeDisc =>
    rw [enabled_lineChange rfl s]
    simp
  | timeout => simp [enabled, (selectEdge_ne_timeout s.lineP1 s.lineP0).symm]
  | sbyte => simp [enabled, (selectEdge_ne_sbyte s.lineP1 s.lineP0).symm]
  | line | tick | sshift | reset => exact absurd rfl h

/-- Settles O11: the enabled handlers are the pending ones, and for a line change the selection is R67's table. -/
theorem enabledHandlersAreThePendingOnes : Obligations.EnabledHandlersAreThePendingOnes := by
  intro i s hi
  refine ⟨enabled_iff_mem_pendingHandlers hi s, nodup_pendingHandlers s, fun _ hmem hline => ?_⟩
  obtain ⟨-, rfl⟩ := (enabled_lineChange hline s).1 ((enabled_iff_mem_pendingHandlers hi s).2 hmem)
  cases s.lineP1 <;> cases s.lineP0 <;> rfl

/-- Settles O12: by the first word of the trace, by whether it decodes, and by whether its operation is enabled; each
ending fixes the refusal. -/
theorem stepEndsInNextOrNamedRefusal : Obligations.StepEndsInNextOrNamedRefusal := by
  intro s
  cases htrace : s.trace with
  | nil =>
    refine ⟨.inl ⟨.inl rfl, s, step_nil htrace⟩, fun r h => ?_⟩
    rw [step_nil htrace] at h
    cases h
  | cons w rest =>
    rw [step_cons htrace]
    cases hdecode : decode w with
    | none =>
      rw [stepWord_reserved hdecode]
      refine ⟨.inr (.inl ⟨w, rest, rfl, hdecode, rfl⟩), fun r h => .inl ⟨w, ?_⟩⟩
      cases h
      rfl
    | some i =>
      rw [stepWord_of_decode hdecode]
      cases he : enabled i s with
      | false =>
        have handler : handlerSource i ≠ none := fun hnone => by
          rw [enabled_of_handlerSource_none hnone] at he
          cases he
        rw [exec_refused_of_disabled ((enabled_trace i s rest).trans he)]
        refine ⟨.inr (.inr ⟨w, rest, i, rfl, hdecode, handler, he, rfl⟩), fun r h => .inr ⟨i, ?_⟩⟩
        cases h
        rfl
      | true =>
        rw [exec_of_enabled ((enabled_trace i s rest).trans he)]
        refine ⟨.inl ⟨.inr ⟨w, rest, i, rfl, hdecode, he⟩, _, rfl⟩, fun r h => ?_⟩
        cases h

end Sys2Proof.Machine

/-! PROOFS. The operations one by one, with what each leaves unchanged (R80 to R85, R101 to R103, R121 to R123, R165). -/

namespace Sys2Proof.Machine

variable {s : State}

/-- A counter is at all-ones exactly at its greatest value. -/
theorem eq_allOnes_iff_toNat {w : Nat} (c : BitVec w) : c = BitVec.allOnes w ↔ c.toNat = 2 ^ w - 1 := by
  rw [← BitVec.toNat_inj, BitVec.toNat_allOnes]

/-- A counter below its greatest value counts up without wrapping. -/
theorem toNat_add_one_of_ne_allOnes {w : Nat} {c : BitVec w} (h : c ≠ BitVec.allOnes w) :
    (c + 1#w).toNat = c.toNat + 1 := by
  have below : c.toNat ≠ 2 ^ w - 1 := mt (eq_allOnes_iff_toNat c).2 h
  have inRange := c.isLt
  rw [BitVec.toNat_add, BitVec.toNat_ofNat, Nat.add_mod_mod, Nat.mod_eq_of_lt (by omega)]

/-- The count after one bit, modulo 64 (R12, R68). -/
theorem toNat_statusCount_bumpCount (st : BitVec 8) :
    (statusCount (bumpCount st)).toNat = ((statusCount st).toNat + 1) % 64 := by
  rw [statusCount_bumpCount, BitVec.toNat_add]
  rfl

/-- The byte count of an accepted length (R61). -/
theorem toNat_byteCount (n : BitVec 6) : (byteCount n).toNat = n.toNat / 8 := BitVec.toNat_udiv

/-- Settles O13: LINE writes the two levels, and its comparison decides `ePend`. -/
theorem lineSetsLevelsAndPendsChange : Obligations.LineSetsLevelsAndPendsChange := by
  refine fun p1 p0 s => ⟨fun same => ?_, fun change => ?_⟩
  · obtain ⟨rfl, rfl⟩ := Prod.mk.inj same
    simp [exec, execLine, State.line]
  · simp [exec, execLine, State.line, bne_iff_ne.2 change]

/-- Settles O14: by whether the timer runs and whether the counter is at its greatest value. -/
theorem tickCountsWhileRunning : Obligations.TickCountsWhileRunning := by
  intro s
  have answers : exec .tick s = .next s.tick := rfl
  rw [answers]
  refine ⟨fun stopped => by rw [tick_stopped stopped], fun running top => ?_, fun running notTop => ?_⟩
  · have wraps := (eq_allOnes_iff_toNat s.tCnt).2 top
    have zero : s.tCnt + 1#_ = 0#_ := by rw [← countUp_count, countUp, if_pos wraps]
    rw [tick_running running, zero]
    simp [wraps]
  · have counts : s.tCnt ≠ BitVec.allOnes _ := mt (eq_allOnes_iff_toNat s.tCnt).1 notTop
    refine ⟨s.tCnt + 1#_, toNat_add_one_of_ne_allOnes counts, ?_⟩
    rw [tick_running running]
    simp [counts]

/-- Settles O15: EDGE_IDLE is the prologue. -/
theorem edgeIdleOnlyDiscardsStaleFrame : Obligations.EdgeIdleOnlyDiscardsStaleFrame := by
  intro s pending p1 p0
  have answers : exec .edgeIdle s = .next s.edgePrologue := exec_of_enabled (by simp [enabled, pending, p1, p0])
  rw [answers]
  exact ⟨fun h => by rw [edgePrologue_noFrame h], fun h => by rw [edgePrologue_stale h]⟩

/-- Settles O16: without a frame the status byte is the one counted up, and its three fields are known. -/
theorem edgeZeroCountsOneBit : Obligations.EdgeZeroCountsOneBit := by
  intro s pending p1 p0
  have answers : exec .edgeZero s = .next s.edgeZero := exec_of_enabled (by simp [enabled, pending, p1, p0])
  rw [answers]
  refine ⟨fun noFrame => ⟨bumpCount s.status, ?_, ?_, ?_, ?_⟩, fun frame => by rw [edgeZero_stale frame]⟩
  · rw [edgeZero_noFrame noFrame]
  · exact toNat_statusCount_bumpCount s.status
  · exact statusHasData_bumpCount s.status
  · exact statusErrorFlag_bumpCount s.status

/-- Settles O17: as EDGE_ZERO, and the buffer is the old one with the bit at the old count set. -/
theorem edgeOneSetsBitAtCount : Obligations.EdgeOneSetsBitAtCount := by
  intro s pending p1 p0
  have answers : exec .edgeOne s = .next s.edgeOne := exec_of_enabled (by simp [enabled, pending, p1, p0])
  rw [answers]
  refine ⟨fun noFrame => ⟨bumpCount s.status, setBit s.buffer s.count, ?_, ?_, ?_, ?_, ?_⟩,
    fun frame => by rw [edgeOne_stale frame]⟩
  · rw [edgeOne_noFrame noFrame]
  · exact toNat_statusCount_bumpCount s.status
  · exact statusHasData_bumpCount s.status
  · exact statusErrorFlag_bumpCount s.status
  · exact getLsbD_setBit s.buffer s.count

/-- Settles O18: by whether a frame waits. -/
theorem edgeDiscKeepsBuffer : Obligations.EdgeDiscKeepsBuffer := by
  intro s pending p1 p0
  have answers : exec .edgeDisc s = .next s.edgeDisc := exec_of_enabled (by simp [enabled, pending, p1, p0])
  rw [answers]
  exact ⟨fun h => by rw [edgeDisc_noFrame h], fun h => by rw [edgeDisc_stale h]⟩

/-- The byte count in the serial register is the length divided by 8, 3 or 4 (R61, R103). -/
theorem setWidth_byteCount (n : BitVec 6) : (byteCount n).setWidth 8 = BitVec.ofNat 8 (n.toNat / 8) := by
  rw [← toNat_byteCount, BitVec.ofNat_toNat]

/-- Settles O20: the accepted state's fields, each by the lemma of the function that makes it. -/
theorem timeoutAcceptsTwoLengths : Obligations.TimeoutAcceptsTwoLengths := by
  rintro s n N pending rfl hlen
  have valid : validLength s.count = true := (validLength_iff_toNat _).2 (hlen.imp And.left And.left)
  have bytes : N = s.count.toNat / 8 := by omega
  refine ⟨readyStatus s.status (byteCount s.count), payload s.buffer s.count, ?_, ?_, ?_, ?_, bytes, ?_⟩
  · rw [exec_timeout_accepts pending valid, bytes, ← setWidth_byteCount]
    rfl
  · exact statusHasData_readyStatus _ _
  · exact statusErrorFlag_readyStatus _ _
  · rw [statusCount_readyStatus, toNat_byteCount, bytes]
  · exact getLsbD_payload s.buffer s.count

/-- The counter of a host clock wraps exactly from 7 (R122). -/
theorem countUp_wraps_from_seven (c : BitVec 3) : (countUp c).2 = decide (c.toNat = 7) := by
  rw [countUp_wraps, decide_eq_decide]
  exact eq_allOnes_iff_toNat c

/-- Settles O23: the register shifts, and the counter counts and wraps. -/
theorem sshiftShiftsOneBit : Obligations.SshiftShiftsOneBit := by
  intro sdi s
  obtain ⟨bit0, bits⟩ := getLsbD_shiftIn s.sr sdi
  refine ⟨rfl, shiftIn s.sr sdi, (countUp s.sCnt).1, ?_, bit0, fun k hk => bits ⟨k, hk⟩, ?_⟩
  · rw [← countUp_wraps_from_seven]
    rfl
  · rw [countUp_count, BitVec.toNat_add]
    rfl

/-- The bits of a byte of the buffer (R41). -/
theorem getLsbD_bufferByte (b : BitVec 64) (m : Nat) {k : Nat} (hk : k < 8) :
    (bufferByte b m).getLsbD k = b.getLsbD (8 * m + k) := by
  simp [bufferByte, hk]

/-- Settles O24: the byte is the low one, reversed, and the buffer moves down by it. -/
theorem sbyteLoadsNextByte : Obligations.SbyteLoadsNextByte := by
  intro s pending
  refine ⟨rev8 (bufferByte s.buffer 0), s.buffer >>> 8, exec_sbyte_of_pending pending, fun k hk => ?_, fun j => ?_⟩
  · rw [getLsbD_rev8_sub _ hk, getLsbD_bufferByte _ 0 hk, Nat.mul_zero, Nat.zero_add]
  · rw [BitVec.getLsbD_ushiftRight, Nat.add_comm]

/-- The bytes that `rev8` leaves as they are: the sixteen of R121, read off the 256 bytes. -/
theorem rev8_fixed_points (b : BitVec 8) :
    rev8 b = b ↔ b ∈ [0x00#8, 0x18#8, 0x24#8, 0x3C#8, 0x42#8, 0x5A#8, 0x66#8, 0x7E#8,
      0x81#8, 0x99#8, 0xA5#8, 0xBD#8, 0xC3#8, 0xDB#8, 0xE7#8, 0xFF#8] := by
  revert b
  decide

/-- Settles O25: `rev8` is written as the three swaps, so that clause holds by definition. -/
theorem rev8ReversesBits : Obligations.Rev8ReversesBits :=
  fun b => ⟨getLsbD_rev8 b, rev8_rev8 b, rfl, rev8_fixed_points b⟩

/-- Settles O27: RESET writes every register that the reset state fixes but the levels. -/
theorem resetSetsResetValues : Obligations.ResetSetsResetValues := fun _ => rfl

/-- Settles O28: the values of the reset state, field by field. -/
theorem resetValues : Obligations.ResetValues :=
  ⟨rfl, rfl, rfl, rfl, rfl, rfl, rfl, rfl, rfl, rfl, rfl, rfl, rfl⟩

/-- An output is at a level exactly while its register is set, and otherwise at the other level. -/
theorem ite_level_eq_iff (b level : Bool) : (if b then level else !level) = level ↔ b = true := by
  cases b <;> simp

/-- Settles O44: the pins are levels selected by the registers, whatever READY_ACTIVE_LEVEL is. -/
theorem pinsFollowRegisters : Obligations.PinsFollowRegisters :=
  fun s => ⟨ite_level_eq_iff s.ready Config.readyActiveLevel, ite_level_eq_iff s.lineP0 Config.linePulseLevel,
    ite_level_eq_iff s.lineP1 Config.linePulseLevel⟩

end Sys2Proof.Machine

/-! PROOFS. What an operation does to each register, over all operations (R10, R13, R17, R28, R47), and what follows for
single states. -/

namespace Sys2Proof.Machine

variable {i : Instr} {s t : State}

/-- The prologue in one equation (R81). -/
theorem edgePrologue_eq (s : State) :
    s.edgePrologue = { s with
      ePend := false, status := if s.hasData then 0x00#8 else s.status, buffer := if s.hasData then 0#64 else s.buffer,
      ready := s.ready && !s.hasData } := by
  cases h : s.hasData
  · simp [edgePrologue_noFrame h]
  · simp [edgePrologue_stale h]

/-- EDGE_DISC in one equation (R84). -/
theorem edgeDisc_eq (s : State) :
    s.edgeDisc = { s with
      ePend := false, tRun := false, status := 0x00#8, buffer := if s.hasData then 0#64 else s.buffer,
      ready := false } := by
  rw [State.edgeDisc, edgePrologue_eq]

/-- TICK in one equation (R101). -/
theorem tick_eq (s : State) :
    s.tick = { s with
      tCnt := if s.tRun then s.tCnt + 1#_ else s.tCnt,
      tPend := s.tPend || (s.tRun && decide (s.tCnt = BitVec.allOnes _)) } := by
  cases h : s.tRun
  · simp only [tick_stopped h, Bool.false_and, Bool.or_false, Bool.false_eq_true, if_false]
    rw [← h]
  · simp [tick_running h, h]

/-- TIMEOUT in one equation (R102 to R104). -/
theorem timeout_eq (s : State) :
    s.timeout = { s with
      tRun := false, tPend := false,
      status := if validLength s.count then readyStatus s.status (byteCount s.count) else 0x00#8,
      buffer := if validLength s.count then payload s.buffer s.count else 0#64,
      sr := if validLength s.count then (byteCount s.count).setWidth 8 else s.sr,
      ready := s.ready || validLength s.count } := by
  cases h : validLength s.count
  · simp [timeout_rejects h]
  · simp [timeout_accepts h, State.accept]

/-- No frame waits once a line change has been served (R81). -/
theorem hasData_edgePrologue (s : State) : s.edgePrologue.hasData = false := by
  cases h : s.hasData
  · rw [edgePrologue_noFrame h]
    exact h
  · rw [edgePrologue_stale h]
    exact statusHasData_zero

/-- `hasData` after a TIMEOUT: exactly at an accepted length (R103, R104). -/
theorem hasData_timeout (s : State) : s.timeout.hasData = validLength s.count := by
  cases h : validLength s.count
  · rw [timeout_rejects h]
    exact statusHasData_zero
  · rw [timeout_accepts h]
    exact statusHasData_readyStatus _ _

/-- `hasData` after an operation: an acceptance sets it, every other handler and RESET clear it (R13). -/
theorem hasData_transition (i : Instr) (s : State) :
    (transition i s).hasData = true ↔ (i = .timeout ∧ (s.count = 26#6 ∨ s.count = 34#6)) ∨
      (s.hasData = true ∧ handlerSource i = none ∧ i ≠ .reset) := by
  cases i with
  | line | sshift => simp [transition, handlerSource, State.hasData]
  | tick => simp [transition, handlerSource, State.hasData, tick_eq]
  | edgeIdle =>
    have h : (transition .edgeIdle s).hasData = false := hasData_edgePrologue s
    simp [h, handlerSource]
  | edgeZero | edgeOne =>
    have h : statusHasData (bumpCount s.edgePrologue.status) = false :=
      (statusHasData_bumpCount _).trans (hasData_edgePrologue s)
    simpa [handlerSource, transition, State.hasData, State.edgeZero, State.edgeOne] using h
  | timeout => simp [transition, handlerSource, hasData_timeout, validLength_iff]
  | edgeDisc | sbyte | reset => simp [transition, State.edgeDisc, handlerSource, State.hasData]

/-- `ready` after an operation: an acceptance sets it; SBYTE, RESET, EDGE_DISC and a stale discard clear it (R17, R28). -/
theorem ready_transition (i : Instr) (s : State) :
    (transition i s).ready = true ↔ (i = .timeout ∧ (s.count = 26#6 ∨ s.count = 34#6)) ∨
      (s.ready = true ∧ i ≠ .sbyte ∧ i ≠ .reset ∧ i ≠ .edgeDisc ∧
        (handlerSource i = some .lineChange → s.hasData = false)) := by
  cases i with
  | line | sshift | sbyte | reset => simp [transition, handlerSource]
  | tick => simp [transition, handlerSource, tick_eq]
  | edgeDisc => simp [transition, State.edgeDisc]
  | edgeIdle | edgeZero | edgeOne =>
    simp [transition, State.edgeIdle, State.edgeZero, State.edgeOne, edgePrologue_eq, handlerSource]
  | timeout => simp [transition, handlerSource, timeout_eq, validLength_iff, or_comm]

/-- Settles O36: the writers of the two flags, in a transition that is served. -/
theorem handshakeFlagWriters : Obligations.HandshakeFlagWriters := by
  intro i s t h
  obtain ⟨-, rfl⟩ := exec_next.1 h
  exact ⟨hasData_transition i s, ready_transition i s⟩

/-- `tRun` after an operation: a counted bit starts the timer; EDGE_DISC, TIMEOUT and RESET stop it (R28). -/
theorem tRun_transition (i : Instr) (s : State) :
    (transition i s).tRun = true ↔ i = .edgeZero ∨ i = .edgeOne ∨
      (s.tRun = true ∧ i ≠ .edgeDisc ∧ i ≠ .timeout ∧ i ≠ .reset) := by
  cases i with
  | line | sshift | sbyte | reset => simp [transition]
  | tick => simp [transition, tick_eq]
  | timeout => simp [transition, timeout_eq]
  | edgeIdle | edgeZero | edgeOne | edgeDisc =>
    simp [transition, State.edgeIdle, State.edgeZero, State.edgeOne, State.edgeDisc, edgePrologue_eq]

/-- `tPend` after an operation: the wrap in TICK sets it; TIMEOUT and RESET clear it (R28; D12). -/
theorem tPend_transition (i : Instr) (s : State) :
    (transition i s).tPend = true ↔ (i = .tick ∧ s.tRun = true ∧ s.tCnt = BitVec.allOnes _) ∨
      (s.tPend = true ∧ i ≠ .timeout ∧ i ≠ .reset) := by
  cases i with
  | line | sshift | sbyte | reset => simp [transition]
  | tick => simp [transition, tick_eq, or_comm]
  | timeout => simp [transition, timeout_eq]
  | edgeIdle | edgeZero | edgeOne | edgeDisc =>
    simp [transition, State.edgeIdle, State.edgeZero, State.edgeOne, State.edgeDisc, edgePrologue_eq]

/-- `sPend` after an operation: the eighth host clock sets it; SBYTE and RESET clear it (R28). -/
theorem sPend_transition (i : Instr) (s : State) :
    (transition i s).sPend = true ↔ ((∃ sdi, i = .sshift sdi) ∧ s.sCnt = 7#3) ∨
      (s.sPend = true ∧ i ≠ .sbyte ∧ i ≠ .reset) := by
  cases i with
  | line | sbyte | reset => simp [transition]
  | sshift sdi =>
    have top : BitVec.allOnes 3 = 7#3 := by decide
    simp [transition, countUp_wraps, top, or_comm]
  | tick => simp [transition, tick_eq]
  | timeout => simp [transition, timeout_eq]
  | edgeIdle | edgeZero | edgeOne | edgeDisc =>
    simp [transition, State.edgeIdle, State.edgeZero, State.edgeOne, State.edgeDisc, edgePrologue_eq]

/-- `ePend` after an operation: a change of the levels sets it; serving it and RESET clear it (R28). -/
theorem ePend_transition (i : Instr) (s : State) :
    (transition i s).ePend = true ↔ (∃ p1 p0, i = .line p1 p0 ∧ (p1, p0) ≠ (s.lineP1, s.lineP0)) ∨
      (s.ePend = true ∧ handlerSource i ≠ some .lineChange ∧ i ≠ .reset) := by
  cases i with
  | line p1 p0 =>
    have change : ((p1, p0) != (s.lineP1, s.lineP0)) = true ↔ (p1, p0) ≠ (s.lineP1, s.lineP0) := bne_iff_ne
    simp only [transition, State.line_ePend, Bool.or_eq_true, change]
    constructor
    · rintro (pending | changed)
      · exact .inr ⟨pending, by simp [handlerSource]⟩
      · exact .inl ⟨p1, p0, rfl, changed⟩
    · rintro (⟨_, _, ⟨rfl, rfl⟩, changed⟩ | ⟨pending, -⟩)
      · exact .inr changed
      · exact .inl pending
  | sshift | sbyte | reset => simp [transition, handlerSource]
  | tick => simp [transition, handlerSource, tick_eq]
  | timeout => simp [transition, handlerSource, timeout_eq]
  | edgeIdle | edgeZero | edgeOne | edgeDisc =>
    simp [transition, State.edgeIdle, State.edgeZero, State.edgeOne, State.edgeDisc, edgePrologue_eq, handlerSource]

/-- Settles O37: the writers of the four flags, in a transition that is served. -/
theorem pendingFlagWriters : Obligations.PendingFlagWriters := by
  intro i s t h
  obtain ⟨-, rfl⟩ := exec_next.1 h
  exact ⟨tRun_transition i s, tPend_transition i s, sPend_transition i s, ePend_transition i s⟩

/-- SharedState is written by the handlers and RESET only (R47). -/
theorem shared_transition (hsource : handlerSource i = none) (hreset : i ≠ .reset) (s : State) :
    (transition i s).status = s.status ∧ (transition i s).buffer = s.buffer := by
  cases i with
  | line | sshift => exact ⟨rfl, rfl⟩
  | tick => simp [transition, tick_eq]
  | reset => exact absurd rfl hreset
  | edgeIdle | edgeZero | edgeOne | edgeDisc | timeout | sbyte => cases hsource

/-- The writers of `buffer`; an EDGE operation other than EDGE_ONE writes it in a stale discard only (R10, R81). -/
theorem buffer_transition (h : (transition i s).buffer ≠ s.buffer) :
    (s.hasData = true ∧ handlerSource i = some .lineChange) ∨
      i = .edgeOne ∨ i = .timeout ∨ i = .sbyte ∨ i = .reset := by
  cases i with
  | edgeIdle | edgeZero | edgeDisc =>
    refine .inl ⟨by_contra fun noFrame => h ?_, rfl⟩
    simp [transition, State.edgeIdle, State.edgeZero, State.edgeDisc, edgePrologue_eq, noFrame]
  | edgeOne | timeout | sbyte | reset => simp
  | line | sshift | tick => exact absurd (shared_transition rfl (by simp) s).2 h

/-- The writers of `SR` (R16). -/
theorem sr_transition (h : (transition i s).sr ≠ s.sr) :
    (∃ sdi, i = .sshift sdi) ∨ i = .timeout ∨ i = .sbyte ∨ i = .reset := by
  cases i with
  | sshift | timeout | sbyte | reset => simp
  | line => exact absurd rfl h
  | tick => simp [transition, tick_eq] at h
  | edgeIdle | edgeZero | edgeOne | edgeDisc =>
    simp [transition, State.edgeIdle, State.edgeZero, State.edgeOne, State.edgeDisc, edgePrologue_eq] at h

/-- The writers of `tCnt` (R20). -/
theorem tCnt_transition (h : (transition i s).tCnt ≠ s.tCnt) :
    i = .edgeZero ∨ i = .edgeOne ∨ i = .tick ∨ i = .reset := by
  cases i with
  | edgeZero | edgeOne | tick | reset => simp
  | line | sshift | sbyte => exact absurd rfl h
  | timeout => simp [transition, timeout_eq] at h
  | edgeIdle | edgeDisc => simp [transition, State.edgeIdle, State.edgeDisc, edgePrologue_eq] at h

/-- The writers of `sCnt` (R21). -/
theorem sCnt_transition (h : (transition i s).sCnt ≠ s.sCnt) : (∃ sdi, i = .sshift sdi) ∨ i = .reset := by
  cases i with
  | sshift | reset => simp
  | line | sbyte => exact absurd rfl h
  | tick => simp [transition, tick_eq] at h
  | timeout => simp [transition, timeout_eq] at h
  | edgeIdle | edgeZero | edgeOne | edgeDisc =>
    simp [transition, State.edgeIdle, State.edgeZero, State.edgeOne, State.edgeDisc, edgePrologue_eq] at h

/-- The levels are the reader's: LINE alone writes them (R22). -/
theorem levels_transition (h : ∀ p1 p0, i ≠ .line p1 p0) (s : State) :
    (transition i s).lineP1 = s.lineP1 ∧ (transition i s).lineP0 = s.lineP0 := by
  cases i with
  | line p1 p0 => exact absurd rfl (h p1 p0)
  | sshift | sbyte | reset => exact ⟨rfl, rfl⟩
  | tick => simp [transition, tick_eq]
  | timeout => simp [transition, timeout_eq]
  | edgeIdle | edgeZero | edgeOne | edgeDisc =>
    simp [transition, State.edgeIdle, State.edgeZero, State.edgeOne, State.edgeDisc, edgePrologue_eq]

/-- Settles O38: each register has its own list of writers. -/
theorem registerWriters : Obligations.RegisterWriters := by
  intro i s t h
  have keepsTrace := exec_keeps_trace h
  obtain ⟨-, rfl⟩ := exec_next.1 h
  refine ⟨fun changed => ?_, buffer_transition, sr_transition, tCnt_transition, sCnt_transition,
    fun notLine => levels_transition notLine s, keepsTrace⟩
  by_contra! noWriter
  obtain ⟨hstatus, hbuffer⟩ := shared_transition noWriter.1 noWriter.2 s
  exact changed.elim (· hstatus) (· hbuffer)

end Sys2Proof.Machine

/-! PROOFS. The invariants of R25 and the idle count: at reset, kept by every step, after RESET and any trace; and what the
phase and a waiting frame do under them (R19, R25, R106, R107). -/

namespace Sys2Proof.Machine

variable {i : Instr} {s t : State}

/-- Settles O29: the flags and the count of the reset state are 0. -/
theorem invariantHoldsAtReset : Obligations.InvariantHoldsAtReset := by
  refine ⟨⟨statusErrorFlag_zero, statusHasData_zero.symm, fun frame => ?_, fun frame => ?_⟩, fun _ => statusCount_zero⟩
  all_goals exact absurd frame (by decide)

/-- No TIMEOUT is pending while a frame waits (R25 item 3, R106). -/
theorem State.Inv.no_timeout (inv : s.Inv) (frame : s.hasData = true) : enabled .timeout s = false :=
  (inv.timer_stopped frame).2

/-- Where TIMEOUT is enabled no frame waits (R106). -/
theorem State.Inv.noFrame_of_timeout (inv : s.Inv) (pending : enabled .timeout s = true) : s.hasData = false := by
  by_contra frame
  have idle := inv.no_timeout (Bool.eq_true_of_not_eq_false frame)
  rw [pending] at idle
  cases idle

/-- Settles O34: no TIMEOUT is pending while a frame waits, and the count is then 3 or 4, no accepted length. -/
theorem noTimeoutWhileReady : Obligations.NoTimeoutWhileReady := by
  intro s inv frame
  refine ⟨exec_refused_of_disabled (inv.no_timeout frame), timeout_rejects ?_⟩
  obtain h | h := inv.count_bytes frame <;> rw [h] <;> rfl

/-- An accepted frame's count is 3 or 4 (R61, R103). -/
theorem byteCount_of_validLength {n : BitVec 6} (h : n = 26#6 ∨ n = 34#6) : byteCount n = 3#6 ∨ byteCount n = 4#6 := by
  obtain rfl | rfl := h
  · exact .inl (by decide)
  · exact .inr (by decide)

/-- `ready` and `hasData` have the same setters and, since every stale frame is discarded and no TIMEOUT finds one, the same
clearers (R25 item 2). -/
theorem State.Inv.ready_iff_transition (inv : s.Inv) (he : enabled i s = true) :
    (transition i s).ready = (transition i s).hasData := by
  rw [Bool.eq_iff_iff, ready_transition, hasData_transition, inv.ready_iff]
  cases i with
  | timeout => simp [handlerSource, inv.noFrame_of_timeout he]
  | line | tick | sshift | edgeIdle | edgeZero | edgeOne | edgeDisc | sbyte | reset => simp [handlerSource]

/-- An operation that leaves a waiting frame leaves the timer stopped (R25 item 3). -/
theorem State.Inv.timer_transition (inv : s.Inv) (frame : (transition i s).hasData = true) :
    (transition i s).tRun = false ∧ (transition i s).tPend = false := by
  rw [← Bool.not_eq_true, ← Bool.not_eq_true, tRun_transition, tPend_transition]
  obtain ⟨rfl, -⟩ | ⟨waiting, noHandler, -⟩ := (hasData_transition i s).1 frame
  · simp
  · obtain ⟨stopped, idle⟩ := inv.timer_stopped waiting
    have notZero : i ≠ .edgeZero := fun h => by simp [h, handlerSource] at noHandler
    have notOne : i ≠ .edgeOne := fun h => by simp [h, handlerSource] at noHandler
    simp [stopped, idle, notZero, notOne]

/-- An operation that leaves a waiting frame leaves a count of 3 or 4 (R25 item 4). -/
theorem State.Inv.count_transition (inv : s.Inv) (frame : (transition i s).hasData = true) :
    (transition i s).count = 3#6 ∨ (transition i s).count = 4#6 := by
  obtain ⟨rfl, accepted⟩ | ⟨waiting, noHandler, notReset⟩ := (hasData_transition i s).1 frame
  · have count : (transition .timeout s).count = byteCount s.count := by
      simp [transition, timeout_accepts ((validLength_iff _).2 accepted), State.count]
    rw [count]
    exact byteCount_of_validLength accepted
  · have count : (transition i s).count = s.count := congrArg statusCount (shared_transition noHandler notReset s).1
    rw [count]
    exact inv.count_bytes waiting

/-- Every operation keeps R25's items. -/
theorem exec_keeps_inv (i : Instr) (s t : State) (h : exec i s = .next t) (inv : s.Inv) : t.Inv := by
  have noError := exec_keeps_errorFlag_zero i s t h inv.errorFlag_zero
  obtain ⟨he, rfl⟩ := exec_next.1 h
  exact ⟨noError, inv.ready_iff_transition he, inv.timer_transition, inv.count_transition⟩

/-- Settles O30: every operation keeps the items, and they do not speak of the trace. -/
theorem stepKeepsInvariant : Obligations.StepKeepsInvariant := by
  refine fun s t inv h => step_keeps exec_keeps_inv (fun s l inv => ?_) h inv
  exact ⟨inv.errorFlag_zero, inv.ready_iff, inv.timer_stopped, inv.count_bytes⟩

/-- The phase while no frame waits (R18). -/
theorem phase_of_noFrame (h : s.hasData = false) :
    s.phase = if s.tRun then .capturing else .idleOrTransmitting := by
  simp [State.phase, h]

theorem phase_of_frame (h : s.hasData = true) : s.phase = .ready := by
  simp [State.phase, h]

/-- A count of 0 meets the rule in every phase. -/
theorem State.IdleCountZero.of_count (h : s.count = 0#6) : s.IdleCountZero := fun _ => h

/-- While the timer runs or a frame waits the rule says nothing of the count. -/
theorem State.IdleCountZero.of_active (h : s.tRun = true ∨ s.hasData = true) : s.IdleCountZero := by
  intro idle
  cases hd : s.hasData
  · have running : s.tRun = true := h.resolve_right (by simp [hd])
    rw [phase_of_noFrame hd, running] at idle
    cases idle
  · rw [phase_of_frame hd] at idle
    cases idle

/-- Every operation keeps the idle count: a bit counted starts the timer, an acceptance leaves a frame, and whatever stops
the timer otherwise zeroes the count (R82, R83, R104, R107). -/
theorem exec_keeps_idleCountZero (i : Instr) (s t : State) (h : exec i s = .next t) (idle : s.IdleCountZero) :
    t.IdleCountZero := by
  obtain ⟨-, rfl⟩ := exec_next.1 h
  cases i with
  | line | sshift => exact idle
  | tick =>
    rw [transition, tick_eq]
    exact idle
  | edgeZero | edgeOne => exact .of_active (.inl rfl)
  | edgeDisc | sbyte | reset => exact .of_count statusCount_zero
  | edgeIdle =>
    rw [transition, State.edgeIdle]
    cases hd : s.hasData
    · rw [edgePrologue_noFrame hd]
      exact idle
    · rw [edgePrologue_stale hd]
      exact .of_count statusCount_zero
  | timeout =>
    cases hv : validLength s.count
    · rw [transition, timeout_rejects hv]
      exact .of_count statusCount_zero
    · exact .of_active (.inr ((hasData_timeout s).trans hv))

/-- Settles O31: every operation keeps the rule, and it does not speak of the trace. -/
theorem stepKeepsIdleCountZero : Obligations.StepKeepsIdleCountZero :=
  fun _ _ idle h => step_keeps exec_keeps_idleCountZero (fun _ _ idle => idle) h idle

/-- Settles O32: RESET leads to a state that meets both rules, and every operation keeps them. -/
theorem invariantAfterResetAndAnyTrace : Obligations.InvariantAfterResetAndAnyTrace := by
  intro s t ws h
  rw [runTrace_reset_cons] at h
  obtain ⟨inv, idle⟩ := invariantHoldsAtReset
  have invReset : s.doReset.Inv := ⟨inv.errorFlag_zero, inv.ready_iff, inv.timer_stopped, inv.count_bytes⟩
  exact ⟨runTrace_keeps exec_keeps_inv h invReset, runTrace_keeps exec_keeps_idleCountZero h idle⟩

/-- Settles O33: an operation that leaves a frame is an acceptance or neither a handler nor RESET, and of the writers of `SR`
only SSHIFT is left. -/
theorem readyFrameKeepsCountByte : Obligations.ReadyFrameKeepsCountByte := by
  intro i s t h frame
  obtain ⟨he, rfl⟩ := exec_next.1 h
  refine ⟨fun waiting notShift inv => ?_, fun noFrame => ?_⟩
  · obtain ⟨rfl, -⟩ | ⟨-, noHandler, notReset⟩ := (hasData_transition i s).1 frame
    · exact absurd waiting (by simp [inv.noFrame_of_timeout he])
    · by_contra changed
      obtain ⟨sdi, rfl⟩ | rfl | rfl | rfl := sr_transition changed
      · exact notShift sdi rfl
      · cases noHandler
      · cases noHandler
      · exact notReset rfl
  · obtain ⟨rfl, accepted⟩ | ⟨waiting, -⟩ := (hasData_transition i s).1 frame
    · simp [transition, timeout_accepts ((validLength_iff _).2 accepted), State.count]
    · rw [noFrame] at waiting
      cases waiting

/-- What stops a frame from waiting without touching the timer leaves the phase that the timer says (R19, R25 item 3). -/
theorem State.Inv.phase_without_frame (inv : s.Inv) (noFrame : t.hasData = false) (timer : t.tRun = s.tRun)
    (v : Bool) : t.phase = phaseAfter .sbyte v s.phase ∧ t.phase = phaseAfter .edgeIdle v s.phase := by
  rw [phase_of_noFrame noFrame, timer]
  cases hd : s.hasData
  · rw [phase_of_noFrame hd]
    cases s.tRun <;> exact ⟨rfl, rfl⟩
  · rw [phase_of_frame hd, (inv.timer_stopped hd).1]
    exact ⟨rfl, rfl⟩

/-- The phase after a pending TIMEOUT: READY from CAPTURING at an accepted length, otherwise IDLE; the count is 0 in IDLE and
so is not accepted there (R19, R107). -/
theorem State.Inv.phase_timeout (inv : s.Inv) (idle : s.IdleCountZero) (pending : enabled .timeout s = true) :
    s.timeout.phase = phaseAfter .timeout (validLength s.count) s.phase := by
  have noFrame := inv.noFrame_of_timeout pending
  have stopped : s.timeout.tRun = false := by rw [timeout_eq]
  cases hv : validLength s.count
  · rw [phase_of_noFrame ((hasData_timeout s).trans hv), stopped, phase_of_noFrame noFrame]
    cases s.tRun <;> rfl
  · rw [phase_of_frame ((hasData_timeout s).trans hv)]
    cases hrun : s.tRun
    · have count := idle (by simp [phase_of_noFrame noFrame, hrun])
      rw [count] at hv
      cases hv
    · rw [phase_of_noFrame noFrame, hrun]
      rfl

/-- Settles O39: the table of R19, row by row. -/
theorem phaseTransitions : Obligations.PhaseTransitions := by
  intro i s t inv idle h
  obtain ⟨he, rfl⟩ := exec_next.1 h
  cases i with
  | line | sshift => rfl
  | tick =>
    rw [transition, tick_eq]
    rfl
  | edgeIdle =>
    have timer : s.edgePrologue.tRun = s.tRun := by rw [edgePrologue_eq]
    exact (inv.phase_without_frame (hasData_edgePrologue s) timer _).2
  | edgeZero | edgeOne =>
    exact phase_of_noFrame ((statusHasData_bumpCount _).trans (hasData_edgePrologue s))
  | edgeDisc | reset => exact phase_of_noFrame statusHasData_zero
  | sbyte => exact (inv.phase_without_frame (t := s.sbyte) statusHasData_zero rfl _).1
  | timeout => exact inv.phase_timeout idle he

end Sys2Proof.Machine

/-! PROOFS. Stale frames, idempotence, quiescence, the serial byte boundary, and the hazards (R45, R47, R81, R175, R176, R183,
R186). -/

namespace Sys2Proof.Machine

variable {i : Instr} {s t : State} {ws : List StepWord}

/-- The status byte of a frame's first bit: no frame waiting, a count of 1 (R12, R13). -/
theorem fields_first_bit : statusHasData 0x01#8 = false ∧ statusCount 0x01#8 = 1#6 := by decide

/-- Settles O40: each of the four handlers after the discard of its prologue. -/
theorem staleFrameDiscarded : Obligations.StaleFrameDiscarded := by
  intro i s lineChange he frame
  refine ⟨_, exec_of_enabled he, ?_⟩
  cases i with
  | edgeIdle =>
    rw [transition, State.edgeIdle, edgePrologue_stale frame]
    exact ⟨statusHasData_zero, rfl, rfl, statusCount_zero, rfl⟩
  | edgeZero =>
    rw [transition, edgeZero_stale frame]
    exact ⟨fields_first_bit.1, rfl, rfl, fields_first_bit.2, rfl⟩
  | edgeOne =>
    rw [transition, edgeOne_stale frame]
    exact ⟨fields_first_bit.1, rfl, rfl, fields_first_bit.2, rfl⟩
  | edgeDisc =>
    rw [transition, edgeDisc_stale frame]
    exact ⟨statusHasData_zero, rfl, rfl, statusCount_zero, rfl⟩
  | line | tick | sshift | timeout | sbyte | reset => cases lineChange

/-- The levels that already stand change nothing, so the second of two equal LINEs does nothing (R80). -/
theorem line_line (p1 p0 : Bool) (s : State) : (s.line p1 p0).line p1 p0 = s.line p1 p0 := by
  simp [State.line]

/-- A second EDGE_IDLE finds no frame and no pending edge (R81, R85). -/
theorem edgeIdle_edgeIdle (s : State) : s.edgeIdle.edgeIdle = s.edgeIdle := by
  have served : s.edgePrologue.ePend = false := by rw [edgePrologue_eq]
  rw [State.edgeIdle, State.edgeIdle, edgePrologue_noFrame (hasData_edgePrologue s), ← served]

/-- A second EDGE_DISC finds no frame and everything it writes at the value it writes (R84). -/
theorem edgeDisc_edgeDisc (s : State) : s.edgeDisc.edgeDisc = s.edgeDisc := by
  have noFrame : s.edgeDisc.hasData = false := statusHasData_zero
  rw [edgeDisc_noFrame noFrame, edgeDisc_eq]

/-- A second TIMEOUT after a rejecting one finds a count of 0 and rejects again (R104). -/
theorem timeout_timeout (h : validLength s.count = false) : s.timeout.timeout = s.timeout := by
  have again : validLength s.timeout.count = false := by
    rw [timeout_rejects h]
    rfl
  rw [timeout_rejects again, timeout_rejects h]

/-- A count that is neither accepted length (R102). -/
theorem validLength_eq_false {n : BitVec 6} (not26 : n ≠ 26#6) (not34 : n ≠ 34#6) : validLength n = false := by
  rw [← Bool.not_eq_true, validLength_iff]
  exact not_or.2 ⟨not26, not34⟩

/-- Settles O41: performing each operation again finds what it left. -/
theorem idempotentOperations : Obligations.IdempotentOperations := fun s =>
  ⟨fun p1 p0 => ⟨_, rfl, congrArg Host.Outcome.next (line_line p1 p0 s)⟩, edgeIdle_edgeIdle s, edgeDisc_edgeDisc s,
    fun not26 not34 => timeout_timeout (validLength_eq_false not26 not34), _, rfl, rfl⟩

/-- Settles O42: a stopped timer does not count, and a handler that is not pending is not enabled. -/
theorem quiescentStateStays : Obligations.QuiescentStateStays := by
  refine fun s quiet => ⟨congrArg _ (tick_stopped quiet.timer_off), fun i handler => exec_refused_of_disabled ?_⟩
  rw [← Bool.not_eq_true, enabled_iff_mem_pendingHandlers handler, quiet.noHandler]
  exact List.not_mem_nil

/-- Whether a word is an SSHIFT's, by R71's match and mask. -/
def isSshiftWord (w : StepWord) : Bool := w &&& 0xFE#8 == 0x20#8

theorem isSshiftWord_encode_sshift (sdi : Bool) : isSshiftWord (encode (.sshift sdi)) = true := by
  cases sdi <;> rfl

theorem isSshiftWord_encode (h : ∀ sdi, i ≠ .sshift sdi) : isSshiftWord (encode i) = false := by
  cases i with
  | line p1 p0 => cases p1 <;> cases p0 <;> rfl
  | sshift sdi => exact absurd rfl (h sdi)
  | tick | edgeIdle | edgeZero | edgeOne | edgeDisc | timeout | sbyte | reset => rfl

/-- An operation other than RESET advances the byte boundary by 1 if it is a host clock and by 0 otherwise (R45, R122). -/
theorem toNat_sCnt_transition (h : i ≠ .reset) (s : State) :
    (transition i s).sCnt.toNat = (s.sCnt.toNat + (isSshiftWord (encode i)).toNat) % 8 := by
  by_cases clock : ∃ sdi, i = .sshift sdi
  · obtain ⟨sdi, rfl⟩ := clock
    simp [isSshiftWord_encode_sshift, transition, countUp_count, BitVec.toNat_add]
  · have other : isSshiftWord (encode i) = false := isSshiftWord_encode fun sdi hi => clock ⟨sdi, hi⟩
    have keeps : (transition i s).sCnt = s.sCnt :=
      by_contra fun changed => (sCnt_transition changed).elim clock h
    rw [keeps, other, Bool.toNat_false, Nat.add_zero, Nat.mod_eq_of_lt s.sCnt.isLt]

/-- Settles O43, by induction on the words: each is an operation's, and the residues modulo 8 add up. -/
theorem serialFramingCountsEveryClock : Obligations.SerialFramingCountsEveryClock := by
  intro ws
  change ∀ s t, runTrace ws s = .next t → encode .reset ∉ ws →
    t.sCnt.toNat = (s.sCnt.toNat + ws.countP isSshiftWord) % 8
  induction ws with
  | nil =>
    intro s t h _
    simp only [runTrace, Host.Outcome.next.injEq] at h
    rw [← h, List.countP_nil, Nat.add_zero, Nat.mod_eq_of_lt s.sCnt.isLt]
  | cons w ws ih =>
    intro s t h noReset
    obtain ⟨u, hstep, hrest⟩ := runTrace_cons_next.1 h
    obtain ⟨i, hdecode, hexec⟩ := stepWord_next.1 hstep
    obtain ⟨-, rfl⟩ := exec_next.1 hexec
    obtain rfl := encode_of_decode hdecode
    have notReset : i ≠ .reset := by
      rintro rfl
      exact noReset List.mem_cons_self
    have noResetLater : encode .reset ∉ ws := fun hmem => noReset (List.mem_cons_of_mem _ hmem)
    have first : List.countP isSshiftWord (encode i :: ws) =
        (isSshiftWord (encode i)).toNat + ws.countP isSshiftWord := by
      cases hc : isSshiftWord (encode i) <;> simp [hc, Nat.add_comm]
    rw [ih _ t hrest noResetLater, toNat_sCnt_transition notReset, first, Nat.mod_add_mod, Nat.add_assoc]

/-- LINE with other levels than the present ones (R80). -/
theorem exec_line_change {p1 p0 : Bool} (h : (p1, p0) ≠ (s.lineP1, s.lineP0)) :
    exec (.line p1 p0) s = .next { s with lineP1 := p1, lineP0 := p0, ePend := true } :=
  (lineSetsLevelsAndPendsChange p1 p0 s).2 h

/-- The lines return to idle and that edge is served: with no frame waiting nothing else changes (R80, R85). -/
theorem runTrace_return_to_idle (noFrame : s.hasData = false) (pulsing : (false, false) ≠ (s.lineP1, s.lineP0)) :
    runTrace [encode (.line false false), encode .edgeIdle] s =
      .next { s with lineP1 := false, lineP0 := false, ePend := false } := by
  rw [runTrace_encode_cons (exec_line_change pulsing), runTrace_singleton]
  exact (edgeIdleOnlyDiscardsStaleFrame { s with lineP1 := false, lineP0 := false, ePend := true } rfl rfl rfl).1 noFrame

/-- With the lines idle and served, writing that again changes nothing. -/
theorem State.LinesQuiet.levels_eq (quiet : s.LinesQuiet) :
    { s with lineP1 := false, lineP0 := false, ePend := false } = s := by
  obtain ⟨-, p1, p0, served⟩ := quiet
  cases s
  cases p1
  cases p0
  cases served
  rfl

/-- Settles O45: the change and the return are one pending edge, and EDGE_IDLE serves it. -/
theorem pulseLostBeforeService : Obligations.PulseLostBeforeService := by
  intro s p1 p0 quiet pulse
  have change : (p1, p0) ≠ (s.lineP1, s.lineP0) := by rwa [quiet.p1_idle, quiet.p0_idle]
  rw [runTrace_encode_cons (exec_line_change change),
    runTrace_return_to_idle (s := { s with lineP1 := p1, lineP0 := p0, ePend := true }) quiet.noFrame pulse.symm]
  exact congrArg _ quiet.levels_eq

/-- An accepted frame waits (R103). -/
theorem hasData_accept (n : BitVec 6) (s : State) : (s.accept n).hasData = true :=
  statusHasData_readyStatus s.status (byteCount n)

/-- The status byte of an accepted 26-bit frame whose `errorFlag` was 0 (R103). -/
theorem readyStatus_three {st : BitVec 8} (noError : statusErrorFlag st = false) : readyStatus st 3#6 = 0x83#8 := by
  rw [readyStatus, noError]
  decide

/-- Capture first: the pulse makes the count 27, which TIMEOUT rejects (R176; P6 order a). -/
theorem edgeOne_then_timeout_rejects (noFrame : s.hasData = false) (overflow : s.tPend = true)
    (served : enabled .edgeOne s = true) (count : s.count = 26#6) :
    runTrace [encode .edgeOne, encode .timeout] s =
      .next { s.edgeOne with tRun := false, tPend := false, status := 0x00#8, buffer := 0#64 } := by
  have answers : exec .edgeOne s = .next s.edgeOne := exec_of_enabled served
  have counted : s.edgeOne.count = 27#6 := by
    have up : s.edgeOne.count = s.count + 1 := by
      rw [edgeOne_noFrame noFrame]
      exact statusCount_bumpCount s.status
    rw [up, count]
    rfl
  have rejected : validLength s.edgeOne.count = false := by
    rw [counted]
    rfl
  have stillPending : s.edgeOne.tPend = true := by rw [edgeOne_noFrame noFrame, ← overflow]
  rw [runTrace_encode_cons answers, runTrace_singleton, exec_timeout_rejects stillPending rejected]

/-- Validator first: the pulse then finds the accepted frame waiting and discards it (R81, R176; P6 order b). -/
theorem edgeOne_discards_accepted (n : BitVec 6) (served : enabled .edgeOne s = true) :
    runTrace [encode .edgeOne] (s.accept n) =
      .next { s.accept n with
        ePend := false, tCnt := Config.timerOffset, tRun := true, status := 0x01#8, buffer := 1#64, ready := false } := by
  have answers : exec .edgeOne (s.accept n) = .next (s.accept n).edgeOne := exec_of_enabled served
  rw [runTrace_singleton, answers, edgeOne_stale (hasData_accept n s)]

/-- Settles O46: EDGE_ONE first makes the count 27, which is rejected; TIMEOUT first accepts 26, and EDGE_ONE then finds the
frame waiting and discards it. -/
theorem timerRaceLosesFrameInBothOrders : Obligations.TimerRaceLosesFrameInBothOrders := by
  intro s inv overflow edge p1 p0 count
  have noFrame : s.hasData = false := inv.noFrame_of_timeout overflow
  have served : enabled .edgeOne s = true := by simp [enabled, edge, p1, p0]
  constructor
  · refine ⟨_, edgeOne_then_timeout_rejects noFrame overflow served count, rfl, rfl, ?_, ?_, rfl⟩
    · simp [edgeOne_noFrame noFrame, inv.ready_iff, noFrame]
    · simp [edgeOne_noFrame noFrame]
  · have valid : validLength s.count = true := (validLength_iff _).2 (.inl count)
    have bytes : byteCount s.count = 3#6 := by
      rw [count]
      decide
    have accepts : runTrace [encode .timeout] s = .next ({ s with tRun := false, tPend := false }.accept s.count) := by
      rw [runTrace_singleton, exec_timeout_accepts overflow valid]
    have discards := edgeOne_discards_accepted (s := { s with tRun := false, tPend := false }) s.count served
    refine ⟨_, _, accepts, rfl, ?_, discards, rfl, rfl, rfl, ?_, rfl⟩
    · rw [State.accept_status, bytes, readyStatus_three inv.errorFlag_zero]
    · rw [State.accept_sr, bytes]
      rfl

/-- Settles O47: the handler's fields, and the count of 0 that a TIMEOUT then finds. -/
theorem disconnectDropsAttempt : Obligations.DisconnectDropsAttempt := by
  intro s he
  have answers : exec .edgeDisc s = .next s.edgeDisc := exec_of_enabled he
  refine ⟨s.edgeDisc, answers, rfl, rfl, ?_, fun overflow => ?_⟩
  · rw [edgeDisc_eq]
  · have overflow' : s.edgeDisc.tPend = true := by rw [edgeDisc_eq, ← overflow]
    have invalid : validLength s.edgeDisc.count = false := rfl
    exact ⟨_, exec_timeout_rejects overflow' invalid, rfl, rfl, rfl⟩

end Sys2Proof.Machine

/-! PROOFS. Pulses and frames: the state after one clean pulse, and the capture image of any frame by induction on its bits
(R42, R59, R72, R88). -/

namespace Sys2Proof.Machine

variable {s t : State} {ws vs : List StepWord}

/-- The buffer after a bit taken at a count (R82, R83). -/
def takeBit (v : Bool) (b : BitVec 64) (n : BitVec 6) : BitVec 64 := bif v then setBit b n else b

theorem getLsbD_takeBit (v : Bool) (b : BitVec 64) (n : BitVec 6) (j : Nat) :
    (takeBit v b n).getLsbD j = (b.getLsbD j || (v && decide (j = n.toNat))) := by
  cases v
  · simp [takeBit]
  · simp [takeBit, getLsbD_setBit]

/-- The pulse of a bit, pending, is served by its handler: the bit is taken and counted, the timer restarts (R82, R83). -/
theorem exec_edge_of_bit (v : Bool) (noFrame : s.hasData = false) (pending : s.ePend = true) (p1 : s.lineP1 = v)
    (p0 : s.lineP0 = !v) :
    exec (bif v then .edgeOne else .edgeZero) s = .next { s with
      ePend := false, tCnt := Config.timerOffset, tRun := true, status := bumpCount s.status,
      buffer := takeBit v s.buffer s.count } := by
  cases v with
  | false =>
    have served : enabled .edgeZero s = true := by simp [enabled, pending, p1, p0]
    rw [cond_false, exec_of_enabled served, transition, edgeZero_noFrame noFrame]
    rfl
  | true =>
    have served : enabled .edgeOne s = true := by simp [enabled, pending, p1, p0]
    rw [cond_true, exec_of_enabled served, transition, edgeOne_noFrame noFrame]
    rfl

/-- One clean pulse (R88). -/
theorem runTrace_pulseWords (quiet : s.LinesQuiet) (v : Bool) :
    runTrace (pulseWords v) s = .next { s with
      tCnt := Config.timerOffset, tRun := true, status := bumpCount s.status, buffer := takeBit v s.buffer s.count } := by
  have change : (v, !v) ≠ (s.lineP1, s.lineP0) := by
    rw [quiet.p1_idle, quiet.p0_idle]
    cases v <;> decide
  have noFrame : statusHasData (bumpCount s.status) = false := (statusHasData_bumpCount _).trans quiet.noFrame
  have pulsing : (false, false) ≠ (v, !v) := by cases v <;> decide
  have idle := quiet.levels_eq
  rw [pulseWords, List.map_cons, List.map_cons, runTrace_encode_cons (exec_line_change change),
    runTrace_encode_cons (exec_edge_of_bit v (s := { s with lineP1 := v, lineP0 := !v, ePend := true })
      quiet.noFrame rfl rfl rfl)]
  exact (runTrace_return_to_idle (s := { s with
    lineP1 := v, lineP0 := !v, ePend := false, tCnt := Config.timerOffset, tRun := true, status := bumpCount s.status,
    buffer := takeBit v s.buffer s.count }) noFrame pulsing).trans (by rw [← idle])

/-- Settles O48: the status byte is the one counted up, and the buffer is the old one with the bit taken at the count. -/
theorem cleanPulseTakesOneBit : Obligations.CleanPulseTakesOneBit := fun s v quiet =>
  ⟨bumpCount s.status, takeBit v s.buffer s.count, runTrace_pulseWords quiet v, toNat_statusCount_bumpCount s.status,
    (statusHasData_bumpCount s.status).trans quiet.noFrame, statusErrorFlag_bumpCount s.status,
    getLsbD_takeBit v s.buffer s.count⟩

/-- The buffer after the bits of a frame, the first of them at a given count (R42, R59). -/
def takeBits : List Bool → BitVec 64 → BitVec 6 → BitVec 64
  | [], b, _ => b
  | v :: bits, b, n => takeBits bits (takeBit v b n) (n + 1)

/-- The status byte after counting bits one by one (R12, R68). -/
def countBits : List Bool → BitVec 8 → BitVec 8
  | [], st => st
  | _ :: bits, st => countBits bits (bumpCount st)

/-- The frame's bits lie in the buffer from the first count on, modulo 64 (R42, R65). -/
theorem getLsbD_takeBits (bits : List Bool) (b : BitVec 64) (n : BitVec 6) (j : Nat) :
    (takeBits bits b n).getLsbD j = true ↔
      b.getLsbD j = true ∨ ∃ i : Nat, (n.toNat + i) % 64 = j ∧ bits[i]? = some true := by
  induction bits generalizing b n with
  | nil => simp [takeBits]
  | cons v bits ih =>
    have first : n.toNat % 64 = n.toNat := Nat.mod_eq_of_lt n.isLt
    have later : (∃ i : Nat, (n.toNat + i) % 64 = j ∧ (v :: bits)[i]? = some true) ↔
        (v = true ∧ j = n.toNat) ∨ ∃ i : Nat, ((n + 1).toNat + i) % 64 = j ∧ bits[i]? = some true := by
      rw [← Nat.or_exists_add_one]
      simp [first, Nat.add_assoc, Nat.add_comm 1, and_comm, eq_comm]
    rw [takeBits, ih, getLsbD_takeBit, later]
    simp [or_assoc]

/-- Counting bits of an attempt from 0: the length modulo 64, no flag (R12, R65). -/
theorem countBits_packStatus (bits : List Bool) (h e : Bool) (n : BitVec 6) :
    countBits bits (packStatus h e n) = packStatus h e (n + BitVec.ofNat 6 bits.length) := by
  induction bits generalizing n with
  | nil => simp [countBits]
  | cons v bits ih =>
    have len : n + 1 + BitVec.ofNat 6 bits.length = n + BitVec.ofNat 6 (bits.length + 1) := by
      rw [BitVec.ofNat_add, BitVec.add_assoc, BitVec.add_comm 1]
      rfl
    rw [countBits, bumpCount, statusHasData_pack, statusErrorFlag_pack, statusCount_pack, ih, len, List.length_cons]

/-- A frame of at least one bit (R42, R59, R72), by induction on its bits: after each the block is quiet again. -/
theorem runTrace_frameWords (v : Bool) (bits : List Bool) (quiet : s.LinesQuiet) :
    runTrace (frameWords (v :: bits)) s = .next { s with
      tCnt := Config.timerOffset, tRun := true, status := countBits (v :: bits) s.status,
      buffer := takeBits (v :: bits) s.buffer s.count } := by
  induction bits generalizing v s with
  | nil =>
    have single : frameWords [v] = pulseWords v := by simp [frameWords]
    rw [single]
    exact runTrace_pulseWords quiet v
  | cons w bits ih =>
    have split : frameWords (v :: w :: bits) = pulseWords v ++ frameWords (w :: bits) := by simp [frameWords]
    have noFrame : statusHasData (bumpCount s.status) = false := (statusHasData_bumpCount _).trans quiet.noFrame
    have count : statusCount (bumpCount s.status) = s.count + 1 := statusCount_bumpCount s.status
    rw [split, runTrace_append (runTrace_pulseWords quiet v),
      ih w (s := { s with
        tCnt := Config.timerOffset, tRun := true, status := bumpCount s.status,
        buffer := takeBit v s.buffer s.count }) ⟨noFrame, quiet.p1_idle, quiet.p0_idle, quiet.served⟩]
    simp only [State.count, count, countBits, takeBits]

/-- A frame from a status byte of 0: the count is the length modulo 64 and both flags are 0 (R65). -/
theorem countBits_zero (bits : List Bool) : countBits bits 0x00#8 = BitVec.ofNat 8 (bits.length % 64) := by
  have zero : 0x00#8 = packStatus false false 0#6 := by decide
  have value : ∀ n : BitVec 6, packStatus false false n = BitVec.ofNat 8 n.toNat := by decide
  rw [zero, countBits_packStatus, BitVec.zero_add, value, BitVec.toNat_ofNat]

/-- Settles O49: the frame runs through, and its status byte and its buffer are known bit by bit. -/
theorem captureImageOfAnyFrame : Obligations.CaptureImageOfAnyFrame := by
  intro bits s quiet zero nonempty
  obtain ⟨v, bits, rfl⟩ := List.exists_cons_of_ne_nil nonempty
  have count : s.count = 0#6 := by
    rw [State.count, zero]
    rfl
  refine ⟨takeBits (v :: bits) s.buffer 0#6, ?_, fun j => ?_⟩
  · rw [runTrace_frameWords v bits quiet, zero, countBits_zero, count]
  · rw [getLsbD_takeBits]
    simp

end Sys2Proof.Machine

/-! PROOFS. The inter-bit window: any number of TICKs in one equation, by the count of a counter that wraps (R72, R100,
R101). -/

namespace Sys2Proof.Machine

variable {s t : State}

/-- A counter wraps within `k + 1` counts if it wraps in the first or within the `k` counts after it (R68). -/
theorem wraps_within_succ {w : Nat} (c : BitVec w) (k : Nat) :
    (decide (c = BitVec.allOnes w) || decide (2 ^ w ≤ (c + 1#w).toNat + k)) = decide (2 ^ w ≤ c.toNat + (k + 1)) := by
  by_cases top : c = BitVec.allOnes w
  · have greatest := (eq_allOnes_iff_toNat c).1 top
    simp only [top, decide_true, Bool.true_or, true_eq_decide_iff]
    rw [← top]
    omega
  · rw [toNat_add_one_of_ne_allOnes top]
    simp [top, Nat.add_assoc, Nat.add_comm 1]

/-- One count and then `k` are `k + 1` (R68). -/
theorem add_one_add_ofNat {w : Nat} (c : BitVec w) (k : Nat) : c + 1#w + BitVec.ofNat w k = c + BitVec.ofNat w (k + 1) := by
  rw [BitVec.ofNat_add, BitVec.add_assoc, BitVec.add_comm 1#w]

/-- `k` TICKs of a running timer: the counter counts to `2^TIMER_WIDTH` and on from 0, and `tPend` is set once it has wrapped
(R101). -/
theorem runTrace_ticks (k : Nat) (running : s.tRun = true) :
    runTrace (List.replicate k (encode .tick)) s = .next { s with
      tCnt := s.tCnt + BitVec.ofNat _ k, tPend := s.tPend || decide (2 ^ Config.timerWidth ≤ s.tCnt.toNat + k) } := by
  induction k generalizing s with
  | zero =>
    have notYet : ¬ 2 ^ Config.timerWidth ≤ s.tCnt.toNat := Nat.not_le.2 s.tCnt.isLt
    simp [runTrace, notYet]
  | succ k ih =>
    have first : exec .tick s = .next s.tick := rfl
    rw [List.replicate_succ, runTrace_encode_cons first, tick_running running,
      ih (s := { s with
        tCnt := s.tCnt + 1#_, tPend := s.tPend || decide (s.tCnt = BitVec.allOnes _) }) running]
    simp only [add_one_add_ofNat, Bool.or_assoc, wraps_within_succ]

/-- Settles O50: from TIMER_OFFSET the counter wraps with the TICK that completes T_TIMEOUT. -/
theorem timeoutWindow : Obligations.TimeoutWindow := by
  intro k s running idle restarted
  have window : Config.timeoutTicks ≤ k ↔ 2 ^ Config.timerWidth ≤ Config.timerOffset.toNat + k := by
    rw [Config.timeoutTicks]
    omega
  refine ⟨s.tCnt + BitVec.ofNat _ k, ?_⟩
  rw [runTrace_ticks k running, idle, restarted, Bool.false_or, decide_eq_decide.2 window]

/-- The TICKs left until a counter wraps take it to 0. -/
theorem add_ofNat_to_wrap {w : Nat} (c : BitVec w) : c + BitVec.ofNat w (2 ^ w - c.toNat) = 0#w := by
  have inRange := c.isLt
  apply BitVec.eq_of_toNat_eq
  rw [BitVec.toNat_add, BitVec.toNat_ofNat, Nat.add_mod_mod, Nat.add_sub_cancel' (by omega), Nat.mod_self]
  rfl

/-- EXPIRE of a running timer whose counter has the value the words are for (R72). -/
theorem runTrace_expireWords (running : s.tRun = true) :
    runTrace (expireWords s.tCnt) s = exec .timeout { s with tCnt := 0#_, tPend := true } := by
  have inRange := s.tCnt.isLt
  have wrapped : 2 ^ Config.timerWidth ≤ s.tCnt.toNat + (2 ^ Config.timerWidth - s.tCnt.toNat) := by omega
  rw [expireWords, runTrace_append (runTrace_ticks _ running), runTrace_singleton, add_ofNat_to_wrap,
    decide_eq_true wrapped, Bool.or_true]

/-- Settles O51: the TICKs end with the wrap, and TIMEOUT is served from there. -/
theorem expireServesTimeout : Obligations.ExpireServesTimeout := fun _ => runTrace_expireWords

end Sys2Proof.Machine

/-! PROOFS. What the host reads: host clocks by induction on the bits it drives, one HOSTBYTE, and the stream of any number of
them (R62, R72, R122 to R125). -/

namespace Sys2Proof.Machine

variable {i : Instr} {s t u : State} {ws vs : List StepWord} {seen later : List Bool}

/-- A host's trace with a first word: what the host sees of it comes first. -/
theorem runHost_cons_next {w : StepWord} :
    runHost (w :: ws) s = .next (seen, u) ↔ ∃ i t later,
      decode w = some i ∧ exec i s = .next t ∧ runHost ws t = .next (later, u) ∧ hostSees i s ++ later = seen := by
  rw [runHost]
  cases decode w with
  | none => simp
  | some i =>
    cases hexec : exec i s with
    | fault r => cases r
    | refused r => simp [hexec]
    | next t =>
      cases htail : runHost ws t with
      | fault r => cases r
      | refused r => simp [hexec, htail]
      | next p =>
        obtain ⟨bits, v⟩ := p
        simp [hexec, htail, and_comm]

/-- The first word of a host's trace, where its operation is enabled. -/
theorem runHost_encode_cons (h : exec i s = .next t) (hrest : runHost ws t = .next (later, u)) :
    runHost (encode i :: ws) s = .next (hostSees i s ++ later, u) :=
  runHost_cons_next.2 ⟨i, t, later, decode_encode i, h, hrest, rfl⟩

/-- Two host's traces one after the other. -/
theorem runHost_append (h : runHost ws s = .next (seen, t)) (hrest : runHost vs t = .next (later, u)) :
    runHost (ws ++ vs) s = .next (seen ++ later, u) := by
  induction ws generalizing s seen with
  | nil =>
    simp only [runHost, Host.Outcome.next.injEq, Prod.mk.injEq] at h
    obtain ⟨rfl, rfl⟩ := h
    exact hrest
  | cons w ws ih =>
    obtain ⟨i, s', bits, hdecode, hexec, htail, rfl⟩ := runHost_cons_next.1 h
    rw [List.cons_append]
    exact runHost_cons_next.2 ⟨i, s', _, hdecode, hexec, ih htail, (List.append_assoc ..).symm⟩

/-- The bits that leave a shift register while bits are driven into it (R122). -/
def shiftedOut : List Bool → BitVec 8 → List Bool
  | [], _ => []
  | sdi :: sdis, r => r.getLsbD 7 :: shiftedOut sdis (shiftIn r sdi)

/-- Host clocks in a row: the register shifts, the counter counts modulo 8, and `sPend` is set once it has wrapped (R122). -/
theorem runHost_sshifts (sdis : List Bool) (s : State) :
    runHost (sdis.map fun b => encode (.sshift b)) s = .next (shiftedOut sdis s.sr, { s with
      sr := sdis.foldl shiftIn s.sr, sCnt := s.sCnt + BitVec.ofNat _ sdis.length,
      sPend := s.sPend || decide (2 ^ 3 ≤ s.sCnt.toNat + sdis.length) }) := by
  induction sdis generalizing s with
  | nil =>
    have notYet : ¬ 8 ≤ s.sCnt.toNat := Nat.not_le.2 s.sCnt.isLt
    simp [runHost, shiftedOut, notYet]
  | cons sdi sdis ih =>
    have first : exec (.sshift sdi) s = .next (s.sshift sdi) := rfl
    rw [List.map_cons, runHost_encode_cons first (ih (s.sshift sdi))]
    simp only [State.sshift, hostSees, State.sdo, shiftedOut, List.foldl_cons, List.length_cons, countUp_count,
      countUp_wraps, add_one_add_ofNat, Bool.or_assoc, wraps_within_succ, List.cons_append, List.nil_append]

/-- The bits of a byte, most significant first, as the host sees them (R72). -/
def byteBits (r : BitVec 8) : List Bool := (List.range 8).map fun k => r.getLsbD (7 - k)

@[simp] theorem length_byteBits (r : BitVec 8) : (byteBits r).length = 8 := by
  simp [byteBits]

/-- The host assembles the byte it was shown (R72). -/
theorem byteOfBits_byteBits (r : BitVec 8) : byteOfBits (byteBits r) = r := by
  revert r
  decide

/-- Of up to eight bits shifted out, each is the register's, from the top down, whatever is driven in (R122). -/
theorem shiftedOut_eq (sdis : List Bool) (r : BitVec 8) (h : sdis.length ≤ 8) :
    shiftedOut sdis r = (List.range sdis.length).map fun k => r.getLsbD (7 - k) := by
  induction sdis generalizing r with
  | nil => rfl
  | cons sdi sdis ih =>
    rw [List.length_cons] at h
    rw [shiftedOut, ih _ (by omega), List.length_cons, List.range_succ_eq_map, List.map_cons, List.map_map]
    congr 1
    refine List.map_congr_left fun k hk => ?_
    have hk7 : k < 7 := by
      have := List.mem_range.1 hk
      omega
    have top : 7 - k = (6 - k) + 1 := by omega
    have down : 7 - (k + 1) = 6 - k := by omega
    rw [Function.comp_apply, Nat.succ_eq_add_one, top, down]
    exact (getLsbD_shiftIn r sdi).2 ⟨6 - k, by omega⟩

/-- One HOSTBYTE on a byte boundary: the host sees the register's byte, and SBYTE has loaded the next one (R72, R124). -/
theorem runHost_hostByteWords (sdi : Vector Bool 8) (aligned : s.sCnt = 0#3) :
    runHost (hostByteWords sdi) s = .next (byteBits s.sr, s.sbyte) := by
  have len : sdi.toList.length = 8 := by simp
  have seen : shiftedOut sdi.toList s.sr = byteBits s.sr := by
    rw [shiftedOut_eq _ _ len.le, len, byteBits]
  have clocks := runHost_sshifts sdi.toList s
  rw [seen, len, aligned] at clocks
  have pending : (s.sPend || decide (2 ^ 3 ≤ (0#3).toNat + 8)) = true := by simp
  rw [hostByteWords, runHost_append clocks (runHost_encode_cons (exec_sbyte_of_pending pending) rfl), hostSees,
    List.append_nil, List.append_nil]
  simp [State.sbyte, aligned]

/-- Bytes of a buffer moved down by one byte (R41, R123). -/
theorem bufferByte_ushiftRight (b : BitVec 64) (m : Nat) : bufferByte (b >>> 8) m = bufferByte b (m + 1) := by
  refine BitVec.eq_of_getLsbD_eq fun k hk => ?_
  rw [getLsbD_bufferByte _ _ hk, getLsbD_bufferByte _ _ hk, BitVec.getLsbD_ushiftRight, Nat.mul_add, Nat.mul_one,
    ← Nat.add_assoc, Nat.add_comm 8]

/-- The state after `k + 1` HOSTBYTEs (R124): `k` bytes of the buffer have followed the first, and the next one is loaded. -/
def State.afterHostBytes (s : State) (k : Nat) : State :=
  { s with
    ready := false, sPend := false, status := 0x00#8, sr := rev8 (bufferByte s.buffer k),
    buffer := s.buffer >>> (8 * (k + 1)) }

/-- SBYTE first and then `k + 1` more. -/
theorem afterHostBytes_sbyte (s : State) (k : Nat) : s.sbyte.afterHostBytes k = s.afterHostBytes (k + 1) := by
  have moved : s.buffer >>> 8 >>> (8 * (k + 1)) = s.buffer >>> (8 * (k + 1 + 1)) := by
    rw [← BitVec.shiftRight_add]
    congr 1
    omega
  simp only [State.afterHostBytes, State.sbyte, bufferByte_ushiftRight, moved]

/-- The bytes of `k + 1` HOSTBYTEs (R62): what `SR` held, then the buffer's bytes from the lowest, each reversed. -/
def State.hostBytes (s : State) (k : Nat) : List (BitVec 8) :=
  s.sr :: (List.range k).map fun m => rev8 (bufferByte s.buffer m)

/-- The first byte, and then those from the state that SBYTE leaves. -/
theorem hostBytes_succ (s : State) (k : Nat) : s.hostBytes (k + 1) = s.sr :: s.sbyte.hostBytes k := by
  simp only [State.hostBytes, List.range_succ_eq_map, List.map_cons, List.map_map, State.sbyte_sr, State.sbyte_buffer,
    bufferByte_ushiftRight, ← bufferByte_zero]
  rfl

/-- The stream, by induction on the HOSTBYTEs (R124, R125). -/
theorem runHost_hostBytes (sdi : Vector Bool 8) (sdis : List (Vector Bool 8)) (aligned : s.sCnt = 0#3) :
    runHost ((sdi :: sdis).flatMap hostByteWords) s =
      .next ((s.hostBytes sdis.length).flatMap byteBits, s.afterHostBytes sdis.length) := by
  induction sdis generalizing sdi s with
  | nil =>
    rw [List.flatMap_singleton, runHost_hostByteWords sdi aligned]
    simp [State.hostBytes, State.afterHostBytes, State.sbyte, bufferByte_zero]
  | cons sdi' sdis ih =>
    rw [List.flatMap_cons, runHost_append (runHost_hostByteWords sdi aligned) (ih sdi' (s := s.sbyte) aligned),
      List.length_cons, hostBytes_succ, List.flatMap_cons, afterHostBytes_sbyte]

/-- Settles O52: the host sees the bits of the register's byte. -/
theorem hostByteReadsShiftRegister : Obligations.HostByteReadsShiftRegister := fun sdi s aligned =>
  ⟨byteBits s.sr, runHost_hostByteWords sdi aligned, length_byteBits s.sr, byteOfBits_byteBits s.sr⟩

/-- Settles O53: the stream's bytes, each as its eight bits. -/
theorem hostStream : Obligations.HostStream := by
  intro sdi sdis s aligned
  refine ⟨(s.hostBytes sdis.length).map byteBits, ?_, ?_, ?_⟩
  · rw [runHost_hostBytes sdi sdis aligned, List.flatMap_def]
    rfl
  · simp
  · have assembled : byteOfBits ∘ byteBits = id := funext byteOfBits_byteBits
    rw [List.map_map, assembled, List.map_id]
    rfl

end Sys2Proof.Machine

/-! PROOFS. Whole frames: a frame and its window, which lengths are accepted, and the delivery of an accepted frame to the
host (R44, R62, R64, R65, R104, R124). -/

namespace Sys2Proof.Machine

variable {s : State}

/-- The state in which the TIMEOUT of a frame is served: the window has run out over the frame's capture image. -/
def State.captured (s : State) (bits : List Bool) : State :=
  { s with
    tCnt := 0#_, tRun := true, tPend := true, status := BitVec.ofNat 8 (bits.length % 64),
    buffer := takeBits bits s.buffer 0#6 }

/-- A frame from an idle block and the window after it end with the TIMEOUT over its capture image (R72). -/
theorem runTrace_frame_expire {bits : List Bool} (quiet : s.LinesQuiet) (zero : s.status = 0x00#8) (nonempty : bits ≠ []) :
    runTrace (frameWords bits ++ expireWords Config.timerOffset) s = exec .timeout (s.captured bits) := by
  obtain ⟨v, bits, rfl⟩ := List.exists_cons_of_ne_nil nonempty
  have count : s.count = 0#6 := by
    rw [State.count, zero]
    rfl
  have expire := runTrace_expireWords (s := { s with
    tCnt := Config.timerOffset, tRun := true, status := countBits (v :: bits) s.status,
    buffer := takeBits (v :: bits) s.buffer s.count }) rfl
  rw [runTrace_append (runTrace_frameWords v bits quiet), expire, zero, countBits_zero, count]
  rfl

/-- The status byte of a frame holds its length modulo 64 as the count (R65). -/
theorem toNat_count_captured (s : State) (bits : List Bool) : (s.captured bits).count.toNat = bits.length % 64 := by
  have value : ∀ n < 64, (statusCount (BitVec.ofNat 8 n)).toNat = n := by decide
  exact value _ (Nat.mod_lt _ (by decide))

/-- The TIMEOUT of a frame accepts exactly the lengths that are 26 or 34 modulo 64 (R64, R65). -/
theorem validLength_captured (s : State) (bits : List Bool) :
    validLength (s.captured bits).count = true ↔ bits.length % 64 = 26 ∨ bits.length % 64 = 34 := by
  rw [validLength_iff_toNat, toNat_count_captured]

/-- Settles O55: the frame's TIMEOUT accepts or rejects, and a rejection leaves `ready` down and SharedState zeroed. -/
theorem onlyTwoLengthsRaiseReady : Obligations.OnlyTwoLengthsRaiseReady := by
  intro bits s quiet zero notReady nonempty
  rw [runTrace_frame_expire quiet zero nonempty, ← validLength_captured s bits]
  cases hv : validLength (s.captured bits).count
  · refine ⟨_, exec_timeout_rejects rfl hv, ?_, fun _ => rfl⟩
    simp [State.captured, notReady]
  · refine ⟨_, exec_timeout_accepts rfl hv, by simp, fun h => ?_⟩
    rw [State.accept_ready] at h
    cases h

/-- A frame of at most 64 bits into an empty buffer lies there bit by bit, and nothing above it (R42). -/
theorem getLsbD_takeBits_zero (bits : List Bool) (short : bits.length ≤ 64) (j : Nat) :
    (takeBits bits 0#64 0#6).getLsbD j = bits[j]?.getD false := by
  rw [Bool.eq_iff_iff, getLsbD_takeBits]
  have bit : (∃ i : Nat, ((0#6).toNat + i) % 64 = j ∧ bits[i]? = some true) ↔ bits[j]? = some true := by
    constructor
    · rintro ⟨i, hj, hi⟩
      have inFrame := (List.getElem?_eq_some_iff.1 hi).1
      rw [BitVec.toNat_ofNat, Nat.zero_mod, Nat.zero_add, Nat.mod_eq_of_lt (by omega)] at hj
      exact hj ▸ hi
    · intro h
      have inFrame := (List.getElem?_eq_some_iff.1 h).1
      exact ⟨j, by simp; omega, h⟩
  rw [bit]
  cases bits[j]? <;> simp

/-- The payload of a clean frame: its bits without the first and the last, in order, and nothing above (R60). -/
theorem getLsbD_payload_frame {bits : List Bool} {n : BitVec 6} (len : bits.length = n.toNat) (j : Nat) :
    (payload (takeBits bits 0#64 0#6) n).getLsbD j = (decide (j < n.toNat - 2) && bits[j + 1]?.getD false) := by
  have inRange := n.isLt
  rw [getLsbD_payload, getLsbD_takeBits_zero bits (by omega), Bool.and_comm]
  obtain below | trailing | above := Nat.lt_trichotomy j (n.toNat - 2)
  · simp [below, below.ne]
  · simp [trailing]
  · have none : bits[j + 1]? = none := List.getElem?_eq_none (by omega)
    simp [none]

/-- A reversed byte of the buffer, most significant bit first, is the byte's bits from the lowest (R62, R63). -/
theorem byteBits_rev8_bufferByte (b : BitVec 64) (m : Nat) :
    byteBits (rev8 (bufferByte b m)) = (List.range 8).map fun k => b.getLsbD (8 * m + k) := by
  refine List.map_congr_left fun k hk => ?_
  rw [getLsbD_rev8_sub _ (List.mem_range.1 hk), getLsbD_bufferByte b m (List.mem_range.1 hk)]

/-- The reversed bytes of the buffer in a row are its bits from the lowest (R44, R62). -/
theorem flatMap_byteBits_rev8 (b : BitVec 64) (N : Nat) :
    ((List.range N).map fun m => rev8 (bufferByte b m)).flatMap byteBits = (List.range (8 * N)).map b.getLsbD := by
  induction N with
  | zero => rfl
  | succ N ih =>
    rw [List.range_succ, List.map_append, List.flatMap_append, ih, Nat.mul_succ, List.range_add, List.map_append,
      List.map_singleton, List.flatMap_singleton, byteBits_rev8_bufferByte, List.map_map]
    rfl

/-- The host's bits of an accepted frame are the frame's, in arrival order, without the two parity positions (R44). -/
theorem payload_bits_in_arrival_order {bits : List Bool} {n : BitVec 6} (len : bits.length = n.toNat) :
    (List.range (n.toNat - 2)).map (payload (takeBits bits 0#64 0#6) n).getLsbD = (bits.drop 1).take (n.toNat - 2) := by
  refine List.ext_getElem (by simp; omega) fun j h _ => ?_
  have below : j < n.toNat - 2 := by simpa using h
  have inFrame : j + 1 < bits.length := by omega
  simp [getLsbD_payload_frame len, below, inFrame]

/-- Past the payload's bytes the buffer is empty (R60, R125). -/
theorem payload_drained {bits : List Bool} {n : BitVec 6} {N : Nat} (len : bits.length = n.toNat) (bytes : n.toNat = 8 * N + 2) :
    rev8 (bufferByte (payload (takeBits bits 0#64 0#6) n) N) = 0x00#8 ∧
      payload (takeBits bits 0#64 0#6) n >>> (8 * (N + 1)) = 0#64 := by
  have above (j : Nat) (h : 8 * N ≤ j) : (payload (takeBits bits 0#64 0#6) n).getLsbD j = false := by
    have notPayload : ¬ j < n.toNat - 2 := by omega
    simp [getLsbD_payload_frame len, notPayload]
  constructor
  · have empty : bufferByte (payload (takeBits bits 0#64 0#6) n) N = 0x00#8 := by
      refine BitVec.eq_of_getLsbD_eq fun k hk => ?_
      rw [getLsbD_bufferByte _ _ hk, above _ (by omega), BitVec.getLsbD_zero]
    rw [empty]
    decide
  · refine BitVec.eq_of_getLsbD_eq fun j _ => ?_
    rw [BitVec.getLsbD_ushiftRight, above _ (by omega), BitVec.getLsbD_zero]

/-- The state after an accepted frame: its TIMEOUT has been served. -/
def State.delivered (s : State) (bits : List Bool) : State :=
  { s.captured bits with tRun := false, tPend := false }.accept (s.captured bits).count

/-- The stream of an accepted frame of `8 N + 2` bits into an empty buffer: the byte count, then the payload in arrival
order, and after `N + 1` HOSTBYTEs nothing is left of it (R44, R62, R124). -/
theorem delivered_stream {bits : List Bool} {N : Nat} (short : bits.length < 64) (bytes : bits.length = 8 * N + 2)
    (empty : s.buffer = 0#64) :
    ((s.delivered bits).hostBytes N).flatMap byteBits = byteBits (BitVec.ofNat 8 N) ++ (bits.drop 1).take (8 * N) ∧
      (s.delivered bits).afterHostBytes N = { s with
        status := 0x00#8, buffer := 0#64, sr := 0x00#8, ready := false, tRun := false, tCnt := 0#_, tPend := false,
        sPend := false } := by
  have len : bits.length = (s.captured bits).count.toNat := by
    rw [toNat_count_captured, Nat.mod_eq_of_lt short]
  have whole : (s.captured bits).count.toNat / 8 = N := by omega
  have payloadBits : (s.captured bits).count.toNat - 2 = 8 * N := by omega
  have buffer : (s.delivered bits).buffer = payload (takeBits bits 0#64 0#6) (s.captured bits).count := by
    rw [← empty]
    rfl
  have sr : (s.delivered bits).sr = BitVec.ofNat 8 N := by
    rw [← whole, ← setWidth_byteCount]
    rfl
  have inOrder := payload_bits_in_arrival_order len
  rw [payloadBits] at inOrder
  obtain ⟨lastByte, drained⟩ := payload_drained len (len.symm.trans bytes)
  constructor
  · rw [State.hostBytes, List.flatMap_cons, flatMap_byteBits_rev8, sr, buffer, inOrder]
  · rw [State.afterHostBytes, buffer, lastByte, drained]
    rfl

/-- Settles O54: the frame is accepted, the stream's first byte is the byte count, and its other bits are the payload's. -/
theorem frameIsDeliveredInArrivalOrder : Obligations.FrameIsDeliveredInArrivalOrder := by
  intro bits sdis s N quiet zero empty aligned lengths hostBytes
  have nonempty : bits ≠ [] := by
    rintro rfl
    simp at lengths
  have valid : validLength (s.captured bits).count = true := (validLength_captured s bits).2 (by omega)
  obtain ⟨sdi, sdis, rfl⟩ := List.exists_cons_of_length_eq_add_one hostBytes
  have clocked : sdis.length = N := Nat.succ.inj hostBytes
  obtain ⟨stream, finished⟩ := delivered_stream (s := s) (bits := bits) (N := N) (by omega) (by omega) empty
  refine ⟨s.delivered bits, _, byteBits (BitVec.ofNat 8 N), ?_, rfl, hasData_accept _ _, ?_, length_byteBits _,
    byteOfBits_byteBits _, finished⟩
  · rw [runTrace_frame_expire quiet zero nonempty, exec_timeout_accepts rfl valid, State.delivered]
  · rw [runHost_hostBytes sdi sdis (s := s.delivered bits) aligned, clocked, stream]

end Sys2Proof.Machine
